-- ==== Sys2Proof/Word.lean ====
section
/-! DEFINITION. Word.lean: the word types of the block.

Registers are 32 bits wide and little-endian (R8); the scratchpad line is 64 bytes (R112). -/

namespace Sys2Proof

/-- One byte of a memory. -/
abbrev Byte := BitVec 8
/-- A 16-bit counter or field (R59). -/
abbrev Half := BitVec 16
/-- One register of the register page (R8). -/
abbrev Word := BitVec 32
/-- A tick of the 64-bit time counter, or a page-table entry (R143). -/
abbrev DWord := BitVec 64
/-- The 512 bits of a scratchpad line (R112). -/
abbrev LineBits := BitVec 512

end Sys2Proof
end

