-- ==== Sys2Proof/Syntax.lean ====
section
/-! DEFINITION. Syntax.lean: the commands of the block, one constructor per row of spec/opcode_table.json.

A row that is an opcode of a queue carries the queue that fetched it, the header of R61 and its operands
(fields as the operand tables number them, held as numbers; WellFormed.lean gives their ranges).
A row that is a register access carries the word written; a row that is an event carries what the event brings. -/

namespace Sys2Proof

/-- The units that have queues (R58); Invar has its own (R305). -/
inductive UnitId where
  | tc (n : Fin 6)
  | ee (n : Fin 2)
  | front (n : Fin 4)
  | back (n : Fin 4)
  | sp (n : Fin 8)
  | eth (n : Fin 4)
  | sctl (n : Fin 8)
  | time
  | invar
  deriving DecidableEq, Repr

/-- A queue: its unit and its number, the PORT of its endpoint (R58). -/
structure QueueId where
  unit : UnitId
  port : Nat
  deriving DecidableEq, Repr

/-- The header common to all commands of queues, bytes 0x01-0x07 (R61). `last` is the END flag. -/
structure Header where
  wait : Bool
  signal : Bool
  timed : Bool
  last : Bool
  irq : Bool
  waitCtr : Nat
  waitBank : Bool
  signalCtr : Nat
  waitValue : Nat
  signalUnit : Nat
  deriving DecidableEq, Repr

/-- Operands of LAUNCH_AT (R67). -/
structure LaunchAtOps where
  timer : Nat
  mode : Nat
  tick : Nat
  deriving DecidableEq, Repr

/-- Operands of JUMP (R65). -/
structure JumpOps where
  target : Nat
  count : Nat
  slot : Nat
  deriving DecidableEq, Repr

/-- Operands of BARRIER (R69). -/
structure BarrierOps where
  id : Nat
  scope : Nat
  advance : Nat
  deriving DecidableEq, Repr

/-- Operands of COMPLETE (R71). -/
structure CompleteOps where
  doorbell : Nat
  ringPage : Nat
  ringPages : Nat
  deriving DecidableEq, Repr

/-- Operands of TIME_READ (R380). -/
structure TimeReadOps where
  dest : Nat
  kind : Nat
  deriving DecidableEq, Repr

/-- Operands of XFER (R135). -/
structure XferOps where
  descAddr : Nat
  descKind : Nat
  xflags : Nat
  channel : Nat
  deriving DecidableEq, Repr

/-- Operands of PGPOLICY and PGTOUCH (R151). -/
structure PageOps where
  virtPage : Nat
  pages : Nat
  fill : Nat
  device : Nat
  deriving DecidableEq, Repr

/-- Operands of SPFILL (R124). -/
structure SpFillOps where
  destLine : Nat
  value : Nat
  lines : Nat
  rowsM1 : Nat
  destPitch : Nat
  deriving DecidableEq, Repr

/-- Operands of SPCOPY (R125). -/
structure SpCopyOps where
  srcLine : Nat
  destLine : Nat
  rowsM1 : Nat
  lines : Nat
  srcPitch : Nat
  destPitch : Nat
  deriving DecidableEq, Repr

/-- Operands of NWRITE (R127). -/
structure NWriteOps where
  srcLine : Nat
  destLine : Nat
  channel : Nat
  rowsM1 : Nat
  lines : Nat
  srcPitch : Nat
  destPitch : Nat
  marks : Nat
  deriving DecidableEq, Repr

/-- Operands of SPCREDIT (R128). -/
structure SpCreditOps where
  channel : Nat
  count : Nat
  deriving DecidableEq, Repr

/-- Operands of MATMUL and MATMUL_S2 (R76, R96). -/
structure MatmulOps where
  aLine : Nat
  bLine : Nat
  accLine : Nat
  scaleLine : Nat
  kM1 : Nat
  fmtA : Nat
  fmtB : Nat
  mM1 : Nat
  nM1 : Nat
  mode : Nat
  aPitch : Nat
  bPitch : Nat
  deriving DecidableEq, Repr

/-- Operands of every vector command (R91). -/
structure VecOps where
  aLine : Nat
  bLine : Nat
  cLine : Nat
  dLine : Nat
  rowsM1 : Nat
  colsM1 : Nat
  fmtIn : Nat
  fmtOut : Nat
  func : Nat
  vflags : Nat
  imm : Nat
  deriving DecidableEq, Repr

/-- Operands of WCONV and WCONV_DIAG (R159). -/
structure WConvOps where
  wdescLine : Nat
  bLine : Nat
  accLine : Nat
  scaleLine : Nat
  p0 : Nat
  ky0 : Nat
  mM1 : Nat
  nM1 : Nat
  mode : Nat
  kyCntM1 : Nat
  fmtB : Nat
  cBase : Nat
  deriving DecidableEq, Repr

/-- Operands of EWIN (R166). -/
structure EwinOps where
  descAddr : Nat
  p0 : Nat
  posM1 : Nat
  coutM1 : Nat
  fmtOut : Nat
  wOffset : Nat
  epiOffset : Nat
  eflags : Nat
  credits : Nat
  deriving DecidableEq, Repr

/-- Operands of PP_PARAM and PP_BPARAM (R180, R205). -/
structure ParamOps where
  addr : Nat
  camera : Nat
  group : Nat
  mode : Nat
  frame : Nat
  epoch : Nat
  setId : Nat
  deriving DecidableEq, Repr

/-- Operands of PP_BAND (R198). -/
structure BandOps where
  camera : Nat
  cores : Nat
  bandRows : Nat
  halo : Nat
  deriving DecidableEq, Repr

/-- Operands of PP_BROWS (R206). -/
structure BRowsOps where
  addr : Nat
  camera : Nat
  fmt : Nat
  rows : Nat
  pitch : Nat
  channels : Nat
  bflags : Nat
  deriving DecidableEq, Repr

/-- Operands of PUB and PUB_OPEN (R259). -/
structure PubOps where
  hdr : Nat
  channel : Nat
  slot : Nat
  pctr : Nat
  deriving DecidableEq, Repr

/-- Operands of PIN_SET (R236). -/
structure PinSetOps where
  pin : Nat
  level : Nat
  deriving DecidableEq, Repr

/-- Operands of PIN_PULSE (R236). -/
structure PinPulseOps where
  pin : Nat
  width : Nat
  deriving DecidableEq, Repr

/-- Operands of PG_START (R239). -/
structure PgStartOps where
  pg : Nat
  pin : Nat
  width : Nat
  periodN : Nat
  periodD : Nat
  count : Nat
  deriving DecidableEq, Repr

/-- Operand of PG_STOP (R238). -/
structure PgStopOps where
  pg : Nat
  deriving DecidableEq, Repr

/-- Operands of CAP_ARM (R234). -/
structure CapArmOps where
  pin : Nat
  edges : Nat
  count : Nat
  length : Nat
  period : Nat
  deriving DecidableEq, Repr

/-- Operand of CAP_DISARM (R234). -/
structure CapDisarmOps where
  pin : Nat
  deriving DecidableEq, Repr

/-- Operands of SCTL_WRITE and SCTL_READ (R190); `dest` is SCTL_READ's. -/
structure SctlOps where
  target : Nat
  sflags : Nat
  reg : Nat
  len : Nat
  camera : Nat
  group : Nat
  data : Nat
  dest : Nat
  deriving DecidableEq, Repr

/-- Operands of SCTL_CCC (R189). -/
structure CccOps where
  target : Nat
  ccc : Nat
  len : Nat
  data : Nat
  deriving DecidableEq, Repr

/-- Operands of SLD_COLL (R298). -/
structure CollOps where
  src : Nat
  dst : Nat
  elements : Nat
  op : Nat
  fmt : Nat
  scope : Nat
  collId : Nat
  deriving DecidableEq, Repr

/-- Operands of ETH_FLOW (R302). -/
structure EthFlowOps where
  addr : Nat
  first : Nat
  count : Nat
  deriving DecidableEq, Repr

/-- Operands of ETH_SEND (R303). -/
structure EthSendOps where
  channel : Nat
  queue : Nat
  deriving DecidableEq, Repr

/-- Operands of ETH_GCL (R225). -/
structure EthGclOps where
  addr : Nat
  baseTick : Nat
  cycleNs : Nat
  entries : Nat
  deriving DecidableEq, Repr

/-- Operands of INV_RECORD (R315). DESIGN CHOICE (log 13). -/
structure InvRecordOps where
  line : Nat
  channel : Nat
  tick : Nat
  deriving DecidableEq, Repr

/-- Operands of INV_INDICATE (R318). DESIGN CHOICE (log 13). -/
structure InvIndicateOps where
  line : Nat
  len : Nat
  deriving DecidableEq, Repr


/-- What a command of a queue does, after its header: its opcode and operands (R61). -/
inductive Body where
  | nop
  | launchAt (o : LaunchAtOps)
  | jump (o : JumpOps)
  | barrier (o : BarrierOps)
  | complete (o : CompleteOps)
  | timeRead (o : TimeReadOps)
  | xfer (o : XferOps)
  | pgPolicy (o : PageOps)
  | pgTouch (o : PageOps)
  | spFill (o : SpFillOps)
  | spCopy (o : SpCopyOps)
  | nWrite (o : NWriteOps)
  | spCredit (o : SpCreditOps)
  | matmul (o : MatmulOps)
  | matmulS2 (o : MatmulOps)
  | vadd (o : VecOps)
  | vsub (o : VecOps)
  | vmul (o : VecOps)
  | vfma (o : VecOps)
  | vmax (o : VecOps)
  | vmin (o : VecOps)
  | vunary (o : VecOps)
  | vcmp (o : VecOps)
  | vsel (o : VecOps)
  | vexp2 (o : VecOps)
  | vlog2 (o : VecOps)
  | vrecip (o : VecOps)
  | vrsqrt (o : VecOps)
  | vact (o : VecOps)
  | vreduce (o : VecOps)
  | vepilogue (o : VecOps)
  | vqs2 (o : VecOps)
  | vquant (o : VecOps)
  | vdequant (o : VecOps)
  | vrescale (o : VecOps)
  | vpool (o : VecOps)
  | vargmax (o : VecOps)
  | vpoolBwd (o : VecOps)
  | wconv (o : WConvOps)
  | wconvDiag (o : WConvOps)
  | ewin (o : EwinOps)
  | ppParam (o : ParamOps)
  | ppBand (o : BandOps)
  | ppBParam (o : ParamOps)
  | ppBRows (o : BRowsOps)
  | pub (o : PubOps)
  | pubOpen (o : PubOps)
  | pinSet (o : PinSetOps)
  | pinPulse (o : PinPulseOps)
  | pgStart (o : PgStartOps)
  | pgStop (o : PgStopOps)
  | capArm (o : CapArmOps)
  | capDisarm (o : CapDisarmOps)
  | sctlWrite (o : SctlOps)
  | sctlRead (o : SctlOps)
  | sctlCcc (o : CccOps)
  | sldColl (o : CollOps)
  | ethFlow (o : EthFlowOps)
  | ethSend (o : EthSendOps)
  | ethGcl (o : EthGclOps)
  | invRecord (o : InvRecordOps)
  | invIndicate (o : InvIndicateOps)
  deriving DecidableEq, Repr

/-- A command of a list (R61). -/
structure Command where
  hdr : Header
  body : Body
  deriving DecidableEq, Repr

/-! ## What events and register writes bring -/

/-- A Solder packet (chapter 14, *Solder packet*); `len` counts payload bytes, or credits. -/
structure Packet where
  kind : Nat
  vl : Nat
  marks : Nat
  dest : Nat
  src : Nat
  channel : Nat
  len : Nat
  seq : Nat
  payload : List Byte
  deriving DecidableEq, Repr

/-- The shape a neighbour's stream declares: device number and count, topology kind and dimensions (R290). -/
structure Shape where
  number : Nat
  count : Nat
  kind : Nat
  dims : List Nat
  deriving DecidableEq, Repr

/-- A packet as a port receives it: the port, the packet, and whether its CRC is right (R287). -/
structure Rx where
  port : Nat
  pkt : Packet
  crcOk : Bool
  deriving DecidableEq, Repr

/-- What is lost with a time source (R219): the PTP port's SLAVE state, REF_10M_IN, PPS_IN, or the Solder parent. DEDUCED (log 46). -/
inductive TimeLoss where
  | ptp
  | reference
  | pps
  | parent
  deriving DecidableEq, Repr

/-- A Solder time message as a port receives it, with the receiver's tick at its reference symbol in 1/256 tick (R221), and whether the sender's time is VALID,
which the message has no field for (R218). DESIGN CHOICE (log 117). -/
structure TimeRx where
  rx : Rx
  tick : Nat
  valid : Bool
  deriving DecidableEq, Repr

/-- A CSI-2 short or long packet: camera port, virtual channel, data type, header check (0 right, 1 corrected, 2 uncorrectable), the sensor's
frame number of a short packet, payload and its CRC check of a long one, and the tick of its start (R174-R176). -/
structure CamPkt where
  cam : Nat
  vc : Nat
  dt : Nat
  header : Nat
  number : Nat
  crcOk : Bool
  data : List Byte
  tick : Nat
  deriving DecidableEq, Repr

/-- A stack-driven slot as the device receives it (R273): physical stack and link, the line's bytes where it carries read data, CS bits 0-31, whether its access
waited for a refresh (R271), and the bank of the channel and the row in which the line lies. DESIGN CHOICE (log 77). -/
structure StackRx where
  stack : Nat
  link : Nat
  data : Option (List Byte)
  check : Nat
  waited : Bool
  bank : Nat
  row : Nat
  deriving DecidableEq, Repr

/-- A power sample (R328): per rail `none` when it does not answer, or its voltage in mV, its current in 1/8 A and its power in 2 mW;
and the regulator's over-current warning. -/
structure Sample where
  rails : List (Option (Nat × Nat × Nat))
  warning : Bool
  deriving DecidableEq, Repr

/-- An element that is retired (R341, R345): a quadrant of a core, a core's sequencer, a unit (bits [21:8] of its endpoint; a core's vector unit
counts as its core), a stack link or a Solder lane. -/
inductive Element where
  | quadrant (core q : Nat)
  | sequencer (core : Nat)
  | unit (field : Nat)
  | link (stack n : Nat)
  | lane (port n : Nat)
  deriving DecidableEq, Repr

/-- A background test (R343): of a column segment of a core's quadrant, of a vector unit, of a scratchpad line, of a Pewter engine or a picture pipeline,
of a spare link or lane. -/
inductive TestTarget where
  | column (core q seg : Nat)
  | vector (core : Nat)
  | line (core line : Nat)
  | pewter (n : Nat)
  | pipeline (n : Nat)
  | spareLink (stack : Nat)
  | spareLane (port : Nat)
  deriving DecidableEq, Repr

/-- The commands of the block: one constructor per row of spec/opcode_table.json. DESIGN CHOICE (log 104). -/
inductive Instr where
  /-- NOP (R63). -/
  | nop (q : QueueId) (h : Header)
  /-- LAUNCH_AT (R67). -/
  | launchAt (q : QueueId) (h : Header) (o : LaunchAtOps)
  /-- JUMP (R65). -/
  | jump (q : QueueId) (h : Header) (o : JumpOps)
  /-- BARRIER (R69). -/
  | barrier (q : QueueId) (h : Header) (o : BarrierOps)
  /-- COMPLETE (R71). -/
  | complete (q : QueueId) (h : Header) (o : CompleteOps)
  /-- TIME_READ (R380). -/
  | timeRead (q : QueueId) (h : Header) (o : TimeReadOps)
  /-- COMMAND_COMPLETION (R64). -/
  | commandCompletion (q : QueueId)
  /-- LAUNCH_TICK (R68). -/
  | launchTick (timer : Nat)
  /-- XFER (R136). -/
  | xfer (q : QueueId) (h : Header) (o : XferOps)
  /-- PGPOLICY (R151). -/
  | pgPolicy (q : QueueId) (h : Header) (o : PageOps)
  /-- PGTOUCH (R151). -/
  | pgTouch (q : QueueId) (h : Header) (o : PageOps)
  /-- SPFILL (R124). -/
  | spFill (q : QueueId) (h : Header) (o : SpFillOps)
  /-- SPCOPY (R125). -/
  | spCopy (q : QueueId) (h : Header) (o : SpCopyOps)
  /-- NWRITE (R127). -/
  | nWrite (q : QueueId) (h : Header) (o : NWriteOps)
  /-- SPCREDIT (R128). -/
  | spCredit (q : QueueId) (h : Header) (o : SpCreditOps)
  /-- MATMUL (R85). -/
  | matmul (q : QueueId) (h : Header) (o : MatmulOps)
  /-- MATMUL_S2 (R96). -/
  | matmulS2 (q : QueueId) (h : Header) (o : MatmulOps)
  /-- VADD (R91). -/
  | vadd (q : QueueId) (h : Header) (o : VecOps)
  /-- VSUB (R91). -/
  | vsub (q : QueueId) (h : Header) (o : VecOps)
  /-- VMUL (R91). -/
  | vmul (q : QueueId) (h : Header) (o : VecOps)
  /-- VFMA (R91). -/
  | vfma (q : QueueId) (h : Header) (o : VecOps)
  /-- VMAX (R91). -/
  | vmax (q : QueueId) (h : Header) (o : VecOps)
  /-- VMIN (R91). -/
  | vmin (q : QueueId) (h : Header) (o : VecOps)
  /-- VUNARY (R91). -/
  | vunary (q : QueueId) (h : Header) (o : VecOps)
  /-- VCMP (R91). -/
  | vcmp (q : QueueId) (h : Header) (o : VecOps)
  /-- VSEL (R91). -/
  | vsel (q : QueueId) (h : Header) (o : VecOps)
  /-- VEXP2 (R92). -/
  | vexp2 (q : QueueId) (h : Header) (o : VecOps)
  /-- VLOG2 (R92). -/
  | vlog2 (q : QueueId) (h : Header) (o : VecOps)
  /-- VRECIP (R92). -/
  | vrecip (q : QueueId) (h : Header) (o : VecOps)
  /-- VRSQRT (R92). -/
  | vrsqrt (q : QueueId) (h : Header) (o : VecOps)
  /-- VACT (R92). -/
  | vact (q : QueueId) (h : Header) (o : VecOps)
  /-- VREDUCE (R93). -/
  | vreduce (q : QueueId) (h : Header) (o : VecOps)
  /-- VEPILOGUE (R107). -/
  | vepilogue (q : QueueId) (h : Header) (o : VecOps)
  /-- VQS2 (R104). -/
  | vqs2 (q : QueueId) (h : Header) (o : VecOps)
  /-- VQUANT (R106). -/
  | vquant (q : QueueId) (h : Header) (o : VecOps)
  /-- VDEQUANT (R108). -/
  | vdequant (q : QueueId) (h : Header) (o : VecOps)
  /-- VRESCALE (R109). -/
  | vrescale (q : QueueId) (h : Header) (o : VecOps)
  /-- VPOOL (R169). -/
  | vpool (q : QueueId) (h : Header) (o : VecOps)
  /-- VARGMAX (R171). -/
  | vargmax (q : QueueId) (h : Header) (o : VecOps)
  /-- VPOOL_BWD (R170). -/
  | vpoolBwd (q : QueueId) (h : Header) (o : VecOps)
  /-- WCONV (R160). -/
  | wconv (q : QueueId) (h : Header) (o : WConvOps)
  /-- WCONV_DIAG (R162). -/
  | wconvDiag (q : QueueId) (h : Header) (o : WConvOps)
  /-- EWIN (R166). -/
  | ewin (q : QueueId) (h : Header) (o : EwinOps)
  /-- PP_PARAM (R180). -/
  | ppParam (q : QueueId) (h : Header) (o : ParamOps)
  /-- PP_BAND (R198). -/
  | ppBand (q : QueueId) (h : Header) (o : BandOps)
  /-- PP_BPARAM (R205). -/
  | ppBParam (q : QueueId) (h : Header) (o : ParamOps)
  /-- PP_BROWS (R206). -/
  | ppBRows (q : QueueId) (h : Header) (o : BRowsOps)
  /-- PUB (R259). -/
  | pub (q : QueueId) (h : Header) (o : PubOps)
  /-- PUB_OPEN (R259). -/
  | pubOpen (q : QueueId) (h : Header) (o : PubOps)
  /-- PIN_SET (R236). -/
  | pinSet (q : QueueId) (h : Header) (o : PinSetOps)
  /-- PIN_PULSE (R236). -/
  | pinPulse (q : QueueId) (h : Header) (o : PinPulseOps)
  /-- PG_START (R239). -/
  | pgStart (q : QueueId) (h : Header) (o : PgStartOps)
  /-- PG_STOP (R238). -/
  | pgStop (q : QueueId) (h : Header) (o : PgStopOps)
  /-- CAP_ARM (R234). -/
  | capArm (q : QueueId) (h : Header) (o : CapArmOps)
  /-- CAP_DISARM (R234). -/
  | capDisarm (q : QueueId) (h : Header) (o : CapDisarmOps)
  /-- SCTL_WRITE (R190). -/
  | sctlWrite (q : QueueId) (h : Header) (o : SctlOps)
  /-- SCTL_READ (R190). -/
  | sctlRead (q : QueueId) (h : Header) (o : SctlOps)
  /-- SCTL_CCC (R189). -/
  | sctlCcc (q : QueueId) (h : Header) (o : CccOps)
  /-- SLD_COLL (R298). -/
  | sldColl (q : QueueId) (h : Header) (o : CollOps)
  /-- ETH_FLOW (R302). -/
  | ethFlow (q : QueueId) (h : Header) (o : EthFlowOps)
  /-- ETH_SEND (R303). -/
  | ethSend (q : QueueId) (h : Header) (o : EthSendOps)
  /-- ETH_GCL (R225). -/
  | ethGcl (q : QueueId) (h : Header) (o : EthGclOps)
  /-- GCL_CYCLE_START (R225). -/
  | gclCycleStart (port : Nat)
  /-- INV_RECORD (R315). -/
  | invRecord (q : QueueId) (h : Header) (o : InvRecordOps)
  /-- INV_INDICATE (R318). -/
  | invIndicate (q : QueueId) (h : Header) (o : InvIndicateOps)
  /-- CHN_SEL (R28). -/
  | chnSel (w : Word)
  /-- CHN_SNAP_COPY (R28). -/
  | chnSnapCopy
  /-- LOAD_START (R49). -/
  | loadStart (w : Word)
  /-- LOAD_CHUNK (R54). -/
  | loadChunk (w : Word)
  /-- LOAD_ABORT (R54). -/
  | loadAbort (w : Word)
  /-- DRAIN_COMPLETE (R51). -/
  | drainComplete
  /-- DRAIN_TIMEOUT (R51). -/
  | drainTimeout
  /-- LOAD_FINISH (R51). -/
  | loadFinish
  /-- DB_RING (R70). -/
  | dbRing (w : Word)
  /-- KILL (R72). -/
  | kill (w : Word)
  /-- KILL_COMPLETE (R72). -/
  | killComplete
  /-- REARM (R73). -/
  | rearm (w : Word)
  /-- REARM_COMPLETE (R73). -/
  | rearmComplete
  /-- HOST_IRQ_CLEAR (R265). -/
  | hostIrqClear (w : Word)
  /-- MEM_BW_SPLIT (R140). -/
  | memBwSplit (w : Word)
  /-- MEM_PT_SEL (R143). -/
  | memPtSel (w : Word)
  /-- MEM_FILL_DONE (R150). -/
  | memFillDone (w : Word)
  /-- SP_DEBUG_READ (R133). -/
  | spDebugRead (core : Nat) (w : Word)
  /-- SP_DEBUG_READ_DONE (R133). -/
  | spDebugReadDone (core : Nat)
  /-- SET_ARM (R218). -/
  | setArm (w : Word)
  /-- PIN_FORCE (R228). -/
  | pinForce (level : Bool) (w : Word)
  /-- TOKEN_SUBMIT (R355). -/
  | tokenSubmit (w : Word)
  /-- TOKEN_DONE (R355). -/
  | tokenDone
  /-- ROLLBACK_COMMIT (R353). -/
  | rollbackCommit (w : Word)
  /-- ATTEST_START (R357). -/
  | attestStart (w : Word)
  /-- ATTEST_DONE (R357). -/
  | attestDone
  /-- ATTEST_RELEASE (R357). -/
  | attestRelease (w : Word)
  /-- ATTEST_TIMEOUT (R357). -/
  | attestTimeout
  /-- INV_REPLAY (R317). -/
  | invReplay (w : Word)
  /-- PWR_CAP_WRITE (R329). -/
  | pwrCapWrite (w : Word)
  /-- IL_COMMIT (R251). -/
  | ilCommit
  /-- IL_COMMIT_DONE (R251). -/
  | ilCommitDone
  /-- IDENTITY (R249). -/
  | identity
  /-- DISCOVER_START (R252). -/
  | discoverStart
  /-- DISCOVER_END (R253). -/
  | discoverEnd
  /-- IL_DERIVE_DONE (R253). -/
  | ilDeriveDone
  /-- REG_WRITE (R266). -/
  | regWrite (offset : Nat) (w : Word) (pecOk : Bool)
  /-- REG_ADDR (R266). -/
  | regAddr (offset : Nat) (pecOk : Bool)
  /-- REG_READ (R266). -/
  | regRead
  /-- MGMT_STATE (R266). -/
  | mgmtState
  /-- REGISTER_WRITE (R10). -/
  | registerWrite (offset : Nat) (w : Word)
  /-- HOST_READ_BURST (R254). -/
  | hostReadBurst (addr upset : Nat)
  /-- HOST_WRITE_BURST (R254). -/
  | hostWriteBurst (addr : Nat) (data : List Byte) (mask ecc : Nat)
  /-- MR_WRITE (R244). -/
  | mrWrite (chan mr value : Nat)
  /-- WRITE_X (R244). -/
  | writeX (chan : Nat)
  /-- REFRESH (R246). -/
  | refresh (chan : Nat)
  /-- SELF_REFRESH_ENTRY (R246). -/
  | selfRefreshEntry (chan : Nat) (deep : Bool)
  /-- SELF_REFRESH_EXIT (R246). -/
  | selfRefreshExit (chan : Nat)
  /-- HC_RESET (R247). -/
  | hcReset
  /-- RESET_ASSERT (R368). -/
  | resetAssert
  /-- RESET_RELEASE (R53). -/
  | resetRelease (straps mgmtAddr : Nat) (pwrOk answers8D : Bool)
  /-- PWR_OK_FALL (R368). -/
  | pwrOkFall
  /-- FIRMWARE_UP (R372). -/
  | firmwareUp (ports : List (Nat × Int))
  /-- MC_RESTART_END (R268). -/
  | mcRestartEnd
  /-- CAL_ENABLE_CHANGE (R310). -/
  | calEnableChange (low : Bool)
  /-- BRAKE_ASSERT (R331). -/
  | brakeAssert
  /-- BRAKE_RELEASE (R331). -/
  | brakeRelease
  /-- PPS_IN_EDGE (R218). -/
  | ppsInEdge (tick : Nat)
  /-- EVENT_PIN_EDGE (R229). -/
  | eventPinEdge (pin instant : Nat) (rising : Bool)
  /-- WINDOW_CLOSE (R235). -/
  | windowClose (pin : Nat)
  /-- REC_FLUSH (R231). -/
  | recFlush (port : Nat)
  /-- PG_EDGE (R239). -/
  | pgEdge (pg : Nat)
  /-- PPS_OUT_SECOND (R240). -/
  | ppsOutSecond
  /-- MCLK_SWITCH (R191). -/
  | mclkSwitch (n : Nat)
  /-- PIN_CALIBRATION (R241). -/
  | pinCalibration (pin : Nat) (passed : Bool)
  /-- SYNC_PERIOD (R221). -/
  | syncPeriod
  /-- SYNC (R221). -/
  | sync (m : TimeRx)
  /-- DELAY_REQ (R221). -/
  | delayReq (m : TimeRx)
  /-- DELAY_RESP (R221). -/
  | delayResp (m : TimeRx)
  /-- SOURCE_LOST (R219): what is lost; written without an operand it is REF_10M_IN. -/
  | sourceLost (what : TimeLoss := .reference)
  /-- PTP_MESSAGE (R224): what the message leads the firmware to, and the domain it names. -/
  | ptpMessage (port state : Nat) (asCapable : Bool) (offset : Option Int) (domain : Nat := 0)
  /-- FRAME_START_PACKET (R175). -/
  | frameStartPacket (p : CamPkt)
  /-- LONG_PACKET (R177). -/
  | longPacket (p : CamPkt)
  /-- FRAME_END_PACKET (R178). -/
  | frameEndPacket (p : CamPkt)
  /-- FRAME_TIMEOUT (R178). -/
  | frameTimeout (cam exposure : Nat)
  /-- MEMORY_FED_FRAME (R193). -/
  | memoryFedFrame (pipe : Nat)
  /-- IBI (R189). -/
  | ibi (port address payload : Nat)
  /-- CREDIT_ARRIVAL (R17). -/
  | creditArrival (channel receiver count : Nat)
  /-- INVAR_INPUT (R307). -/
  | invarInput (channel : Nat)
  /-- CHECKPOINT_DUE (R316). -/
  | checkpointDue
  /-- CHECKPOINT_SIGNED (R316). -/
  | checkpointSigned
  /-- ACK (R318). -/
  | ack (frame : List Byte)
  /-- REQ_IDENT (R318). -/
  | reqIdent (frame : List Byte)
  /-- REQ_LAST (R318). -/
  | reqLast (frame : List Byte)
  /-- UART_RETRY (R318). -/
  | uartRetry
  /-- DATA (R293). -/
  | data (r : Rx)
  /-- CREDIT (R293). -/
  | credit (r : Rx)
  /-- MCAST_DATA (R294). -/
  | mcastData (r : Rx) (policy : Option Nat)
  /-- MCAST_CREDIT (R295). -/
  | mcastCredit (r : Rx)
  /-- SOLDER_BARRIER (R296). -/
  | solderBarrier (r : Rx)
  /-- COLL (R298). -/
  | coll (r : Rx)
  /-- MEM_REQ (R142). -/
  | memReq (r : Rx)
  /-- MEM_RESP (R142). -/
  | memResp (r : Rx)
  /-- LINK_CTRL (R287). -/
  | linkCtrl (port : Nat) (nack : Bool) (seq : Nat) (shape : Option Shape)
  /-- PORT_RETRAIN_DONE (R287). -/
  | portRetrainDone (port : Nat) (asym : Int)
  /-- LANE_DEGRADE (R288). -/
  | laneDegrade (port lane : Nat)
  /-- LANE_RETRAIN_DONE (R288), with the asymmetry the link then measures (R223). -/
  | laneRetrainDone (port lane : Nat) (passed : Bool) (asym : Int := 0)
  /-- FLOW_FRAME_RX (R304). -/
  | flowFrameRx (port etherType : Nat) (data : List Byte)
  /-- STACK_READ_RETURN (R274). -/
  | stackReadReturn (r : StackRx)
  /-- LINK_RETRAIN_DONE (R278). -/
  | linkRetrainDone (stack link : Nat) (passed : Bool)
  /-- STACK_SCRUB (R281): the row, what the scrub found there, and the line an uncorrectable error lies in. -/
  | stackScrub (stack bank row found : Nat) (line : Nat := 0)
  /-- SP_REPAIR (R130). -/
  | spRepair (core line : Nat)
  /-- FAULT_RESOLVED (R147). -/
  | faultResolved (page : Nat) (data : List Byte)
  /-- HOST_FILL_REQUEST (R150). -/
  | hostFillRequest
  /-- FILL_TIMEOUT (R150). -/
  | fillTimeout
  /-- RETIREMENT (R345). -/
  | retirement (e : Element)
  /-- PLACEMENT_SWITCH (R47). -/
  | placementSwitch
  /-- BACKGROUND_TEST (R343). -/
  | backgroundTest (target : TestTarget) (passed : Bool)
  /-- COLUMN_SWAP (R341). -/
  | columnSwap (core quadrant : Nat)
  /-- CALIBRATION (R344). -/
  | calibration (kind : Nat) (passed : Bool)
  /-- DOMAIN_ON_DONE (R323). -/
  | domainOnDone (domain : Nat)
  /-- BANK_GROUP_ZEROED (R114). -/
  | bankGroupZeroed (core group : Nat)
  /-- POWER_SAMPLE (R328). -/
  | powerSample (p : Sample)
  /-- THERMAL_STEP (R326). -/
  | thermalStep (temps : List (Nat × Int))
  /-- OP_STEP_SETTLED (R327). -/
  | opStepSettled
  /-- MATCH_UPDATE (R338). -/
  | matchUpdate (rates : List (Nat × Nat))
  /-- DROOP_FIRE (R333). -/
  | droopFire (unit : Nat)
  /-- DROOP_CLEAR (R335). -/
  | droopClear
  /-- THERMAL_TRIP (R337). -/
  | thermalTrip (sensor : Nat) (temp : Int)
  /-- TRIP_COOLING (R337). -/
  | tripCooling
  /-- TRIP_RESTART (R337). -/
  | tripRestart
  /-- MANAGEMENT_CONTROLLER_RESTART (R268). -/
  | managementControllerRestart
  /-- JTAG_INSTRUCTION (R358). -/
  | jtagInstruction (code : Nat) (data : List Byte)
  /-- GATE_INTERVAL (R225). -/
  | gateInterval (port : Nat)
  /-- ANNOUNCE_INTERVAL (R224). -/
  | announceInterval
  /-- REF_10M_IN_RETURN (R219). -/
  | ref10mInReturn
  /-- PULSE_END (R236). -/
  | pulseEnd (pin : Nat)
  /-- HC_RESET_RELEASE (R247). -/
  | hcResetRelease
  /-- DYNAMIC_ADDRESS_ASSIGNMENT (R266). -/
  | dynamicAddressAssignment (address : Nat)
  deriving DecidableEq, Repr

end Sys2Proof
end

