-- ==== Sys2Proof/Decode.lean ====
section
/-! DEFINITION. Decode.lean: commands spelled by words of the table's bits. No row of spec/opcode_table.json gives bits, so no word spells a command. -/

namespace Sys2Proof

/-- The command that a word spells: none, for every word. DESIGN CHOICE (log 102). -/
def decodeTableWord (_nbits _w : Nat) : Option Instr := none

end Sys2Proof
end

