-- ==== Sys2Proof/Config.lean ====
section
/-! DEFINITION. Config.lean: what an implementation fixes and the spec leaves open.

Every constant here is opaque: no proof can see its value, so a statement holds whatever it is.
The assumption log names each one. -/

namespace Sys2Proof.Config

/-- A fresh free value: the `n`-th value the block takes where the spec gives none. DESIGN CHOICE (log 15). -/
opaque free : Nat → Nat

/-- Whether an RSA-3072 or SLH-DSA signature verifies: scheme (0 RSASSA-PSS, 1 SLH-DSA), public key, message, signature. DESIGN CHOICE (log 16). -/
opaque verifies : Nat → List Byte → List Byte → List Byte → Bool

/-- The signature an on-chip key makes: scheme, key, message, as little-endian bytes. DESIGN CHOICE (log 16). -/
opaque signature : Nat → Nat → List Byte → List Byte

/-- The `n`-th random byte string of the security engine's generator. DESIGN CHOICE (log 16). -/
opaque random : Nat → List Byte

/-- The address of an Ethernet port (R302). DESIGN CHOICE (log 16). -/
opaque portAddress : Nat → List Byte

/-- The tested floor rate of a unit in OTP, in units of 10^6 per second, by bits [21:8] of its endpoint (R34). DESIGN CHOICE (log 16). -/
opaque floorRate : Nat → Nat

/-- The data rate in MT/s of a host channel at a set point: channel × 4 + set point (R381). DESIGN CHOICE (log 16). -/
opaque dataRate : Nat → Nat

/-- Whether the host initialised a channel under the LPDDR5X standard (R243, R381). DESIGN CHOICE (log 16). -/
opaque hostX : Nat → Bool

/-- The identity and Invar public keys (0 identity, 1 Invar), and the SHA-384 of the reference copies they are compared with (R356). DESIGN CHOICE (log 16). -/
opaque publicKeys : Nat → List Byte

/-- The ROM default stream's image (R56). DESIGN CHOICE (log 16). -/
opaque defaultImage : List Byte

/-- The ROM default stream's statistics settings (a group 6 set) and its scaler's filters (a back-end group 3 set), which R56 does not give. DESIGN CHOICE (log 16). -/
opaque defaultSets : Nat → List Byte

/-- The grey-world gain of a colour (0 red, 1 green, 2 blue) from the statistics of the previous frame, an FP32 code (R56). DESIGN CHOICE (log 16). -/
opaque greyWorld : Nat → List Byte → Nat

/-- DEVICE_SERIAL (R356). DESIGN CHOICE (log 16). -/
opaque serial : Nat

/-- The bytes that a Solder neighbour holds at a device address when a load reads a weight there: device, address, length. DESIGN CHOICE (log 16); DESIGN CHOICE (log 90). -/
opaque neighbourBytes : Nat → Nat → Nat → List Byte

/-- The vendor's keys enrolled at manufacture in slot 0: 0 its RSA modulus, 1 its SLH-DSA key (R354). DESIGN CHOICE (log 16). -/
opaque vendorKey : Nat → List Byte

/-- Tokens that Invar's input buffer holds for a channel (R307). DESIGN CHOICE (log 16); DESIGN CHOICE (log 92). -/
opaque invarRoom : Nat → Nat

/-- Ticks by which the time counter advances while the block idles, at the `n`-th idle step (R215). DESIGN CHOICE (log 2). -/
opaque idleTicks : Nat → Nat

/-- SILICON_REV of DEV_ID: major in [7:4], minor in [3:0]. DESIGN CHOICE (log 16). -/
opaque siliconRev : Nat

end Sys2Proof.Config
end

