-- ==== Sys2Proof/Machine/Bits.lean ====
section
/-! DEFINITION. Machine/Bits.lean: bit-field, sign-extension and byte-order helpers.

Multi-byte fields are little-endian (R11); bit ranges are [high:low] with bit 0 least significant. -/

namespace Sys2Proof.Machine

/-- Bits `[lo + w - 1 : lo]` of `x`. -/
def field (x lo w : Nat) : Nat := (x >>> lo) % 2 ^ w

/-- Bit `n` of `x`. -/
def bitOf (x n : Nat) : Bool := x.testBit n

/-- `x` with bits `[lo + w - 1 : lo]` replaced by the low `w` bits of `v`. -/
def setField (x lo w v : Nat) : Nat :=
  (x >>> (lo + w)) <<< (lo + w) + (v % 2 ^ w) <<< lo + x % 2 ^ lo

/-- One bit as a number. -/
def b2n (b : Bool) : Nat := if b then 1 else 0

/-- The two's-complement reading of the low `w` bits of `x`. -/
def signed (w x : Nat) : Int :=
  if (x % 2 ^ w).testBit (w - 1) then ((x % 2 ^ w : Nat) : Int) - 2 ^ w else (x % 2 ^ w : Nat)

/-- The low `w` bits of the two's complement of `i`. -/
def unsigned (w : Nat) (i : Int) : Nat := (i % (2 ^ w : Nat)).toNat

/-- The number that a little-endian list of bytes spells (R11). -/
def leNat : List Byte → Nat
  | [] => 0
  | b :: bs => b.toNat + 256 * leNat bs

/-- The `n` little-endian bytes of `x` (R11). -/
def leBytes : Nat → Nat → List Byte
  | 0, _ => []
  | n + 1, x => BitVec.ofNat 8 x :: leBytes n (x / 256)

/-- `n` bytes of `bs` from offset `off` on, zero beyond its end. -/
def slice (bs : List Byte) (off n : Nat) : List Byte :=
  let t := (bs.drop off).take n
  t ++ List.replicate (n - t.length) 0

/-- The little-endian field of `n` bytes at offset `off`. -/
def leAt (bs : List Byte) (off n : Nat) : Nat := leNat (slice bs off n)

/-- Whether every byte of a range is zero. -/
def zeroAt (bs : List Byte) (off n : Nat) : Bool := (slice bs off n).all (· == 0)

/-- `⌈a / b⌉`. -/
def ceilDiv (a b : Nat) : Nat := (a + (b - 1)) / b

/-- Saturating addition at `top`. -/
def satAdd (top a b : Nat) : Nat := min top (a + b)

end Sys2Proof.Machine
end

