-- ==== Sys2Proof/Machine/Num.lean ====
section
/-! DEFINITION. Machine/Num.lean: element formats, exact values and the one rounding (R12, R79-R83, R92, R95).

Finite values are held exactly, as sign, magnitude and power of two; every rounding is to nearest
with ties away from zero and happens once, from the exact value. -/

namespace Sys2Proof.Machine

/-- The element formats of R79. -/
inductive Fmt where
  | int4 | int8 | int16 | e2m1 | e3m2 | e2m3 | e4m3 | e5m2 | bf16 | fp16 | int32 | fp32 | ue5m3
  deriving DecidableEq, Repr

/-- The format of an element format code (R79); `none` for untyped bytes, pixel formats and reserved codes. -/
def Fmt.ofCode : Nat → Option Fmt
  | 0x01 => some .int4 | 0x02 => some .int8 | 0x03 => some .int16 | 0x04 => some .e2m1
  | 0x05 => some .e3m2 | 0x06 => some .e2m3 | 0x07 => some .e4m3 | 0x08 => some .e5m2
  | 0x09 => some .bf16 | 0x0A => some .fp16 | 0x0B => some .int32 | 0x0C => some .fp32
  | 0x0D => some .ue5m3 | _ => none

/-- Bits per element (R79). -/
def Fmt.width : Fmt → Nat
  | .int4 => 4 | .int8 => 8 | .int16 => 16 | .e2m1 => 4 | .e3m2 => 6 | .e2m3 => 6 | .e4m3 => 8
  | .e5m2 => 8 | .bf16 => 16 | .fp16 => 16 | .int32 => 32 | .fp32 => 32 | .ue5m3 => 8

/-- Whether the format is two's complement. -/
def Fmt.isInt : Fmt → Bool
  | .int4 | .int8 | .int16 | .int32 => true
  | _ => false

/-- Formats that the array takes as operands (R84). -/
def Fmt.isArray : Fmt → Bool
  | .int32 | .fp32 | .ue5m3 => false
  | _ => true

/-- Formats of 16-bit floating point, which pair only with each other (R84). -/
def Fmt.isHalf : Fmt → Bool
  | .bf16 | .fp16 => true
  | _ => false

/-- A floating-point layout: mantissa bits, bias, largest finite magnitude code,
infinity and canonical NaN magnitude codes where the format has them, and whether it has a sign. -/
structure FLayout where
  man : Nat
  bias : Nat
  top : Nat
  inf : Option Nat
  nan : Option Nat
  sign : Bool
  deriving DecidableEq, Repr

/-- The layouts of the floating-point formats (R79, R81). UE5M3 behaves as a bias-15 format with three
mantissa bits and no sign (R79, R95). -/
def Fmt.layout : Fmt → FLayout
  | .e2m1 => ⟨1, 1, 0x7, none, none, true⟩
  | .e3m2 => ⟨2, 3, 0x1F, none, none, true⟩
  | .e2m3 => ⟨3, 1, 0x1F, none, none, true⟩
  | .e4m3 => ⟨3, 7, 0x7E, none, some 0x7F, true⟩
  | .e5m2 => ⟨2, 15, 0x7B, some 0x7C, some 0x7E, true⟩
  | .bf16 => ⟨7, 127, 0x7F7F, some 0x7F80, some 0x7FC0, true⟩
  | .fp16 => ⟨10, 15, 0x7BFF, some 0x7C00, some 0x7E00, true⟩
  | .ue5m3 => ⟨3, 15, 0xFF, none, none, false⟩
  | _ => ⟨23, 127, 0x7F7F_FFFF, some 0x7F80_0000, some 0x7FC0_0000, true⟩

/-- An exact value: NaN, a signed infinity, or `± mag × 2^exp` with the sign of a zero kept (R80). -/
inductive Val where
  | nan
  | inf (neg : Bool)
  | fin (neg : Bool) (mag : Nat) (exp : Int)
  deriving DecidableEq, Repr

/-- `+0`. -/
def Val.zero : Val := .fin false 0 0

/-- The value of an integer. -/
def Val.ofInt (i : Int) : Val := .fin (decide (i < 0)) i.natAbs 0

/-- Whether the value is a zero of either sign. -/
def Val.isZero : Val → Bool
  | .fin _ m _ => m == 0
  | _ => false

/-- Whether the value is NaN. -/
def Val.isNan : Val → Bool
  | .nan => true
  | _ => false

/-- Whether the value is finite. -/
def Val.isFin : Val → Bool
  | .fin _ _ _ => true
  | _ => false

/-- Whether the value is an infinity. -/
def Val.isInf : Val → Bool
  | .inf _ => true
  | _ => false

/-- The sign, of zeros and infinities too. -/
def Val.neg? : Val → Bool
  | .nan => false
  | .inf s => s
  | .fin s _ _ => s

/-- The value with its sign inverted. -/
def Val.negate : Val → Val
  | .nan => .nan
  | .inf s => .inf (!s)
  | .fin s m e => .fin (!s) m e

/-- The magnitude. -/
def Val.abs : Val → Val
  | .nan => .nan
  | .inf _ => .inf false
  | .fin _ m e => .fin false m e

/-- The value of a floating-point code (R79). -/
def decodeF (f : FLayout) (code width : Nat) : Val :=
  let s := f.sign && code.testBit (width - 1)
  let c := if f.sign then code % 2 ^ (width - 1) else code % 2 ^ width
  if f.inf = some c then .inf s
  else if (f.nan.isSome && decide (f.top < c)) then .nan
  else
    let e := c / 2 ^ f.man
    let m := c % 2 ^ f.man
    if e = 0 then .fin s m (1 - (f.bias : Int) - f.man)
    else .fin s (2 ^ f.man + m) ((e : Int) - f.bias - f.man)

/-- The value of an element code (R79). UE5M3's code 0x00 reads as zero. -/
def decode (f : Fmt) (code : Nat) : Val :=
  match f with
  | .int4 => Val.ofInt (signed 4 code)
  | .int8 => Val.ofInt (signed 8 code)
  | .int16 => Val.ofInt (signed 16 code)
  | .int32 => Val.ofInt (signed 32 code)
  | f => decodeF f.layout code f.width

/-- `x × 2^k` when `0 ≤ k`, `x` otherwise. -/
def shl (x : Nat) (k : Int) : Nat := x <<< k.toNat

/-- `⌊log2 (num / den)⌋` of a positive quotient. -/
def floorLog2 (num den : Nat) : Int :=
  let e : Int := (num.log2 : Int) - den.log2
  if shl den e ≤ shl num (-e) then e else e - 1

/-- `num / den × 2^-q` rounded to the nearest integer, ties up (the one rounding, R12). -/
def roundQ (num den : Nat) (q : Int) : Nat :=
  (2 * shl num (-q) / shl den q + 1) / 2

/-- The magnitude code of a positive quotient rounded to a floating-point layout with the exponent
unbounded above; below the smallest normal the subnormal spacing applies (R83 rule 3). -/
def roundCode (f : FLayout) (num den : Nat) : Nat :=
  if num = 0 then 0
  else
    let emin : Int := 1 - (f.bias : Int)
    let e := floorLog2 num den
    if e < emin then roundQ num den (emin - f.man)
    else roundQ num den (e - f.man) + (e - emin).toNat * 2 ^ f.man

/-- A conversion's result and what it counts (R83): `sat` is CONV_SAT, `nan` is CONV_NAN. -/
structure Conv where
  code : Nat
  sat : Bool
  nan : Bool
  deriving DecidableEq, Repr

/-- A quotient of magnitudes converted into a floating-point format. -/
def convQF (f : FLayout) (width : Nat) (neg : Bool) (num den : Nat) : Conv :=
  let c := roundCode f num den
  if f.sign then
    let s := if neg then 2 ^ (width - 1) else 0
    if f.top < c then ⟨s + f.top, true, false⟩ else ⟨s + c, false, false⟩
  else if neg then ⟨0, num ≠ 0, false⟩
  else if f.top < c then ⟨f.top, true, false⟩ else ⟨c, false, false⟩

/-- A quotient of magnitudes converted into `n`-bit two's complement, saturating to `[lo, 2^(n-1) - 1]`. -/
def convQI (n : Nat) (lo : Int) (neg : Bool) (num den : Nat) : Conv :=
  let a := (roundQ num den 0 : Int)
  let v := if neg then -a else a
  let hi : Int := 2 ^ (n - 1) - 1
  if hi < v then ⟨unsigned n hi, true, false⟩
  else if v < lo then ⟨unsigned n lo, true, false⟩
  else ⟨unsigned n v, false, false⟩

/-- The least integer of an integer format; the escape code is given up when escapes are on (R101). -/
def intLo (n : Nat) (esc : Bool) : Int := if esc then 1 - 2 ^ (n - 1) else -(2 ^ (n - 1))

/-- A finite quotient `± num / den` converted to a format, rounding once (R83). `esc` narrows an integer
range as R101 does and writes +0 for −0. -/
def convQ (f : Fmt) (esc neg : Bool) (num den : Nat) : Conv :=
  if f.isInt then convQI f.width (intLo f.width esc) neg num den
  else
    let r := convQF f.layout f.width neg num den
    if esc && r.code == 2 ^ (f.width - 1) then { r with code := 0 } else r

/-- The conversion of R83 from an exact value to a format. -/
def convE (f : Fmt) (esc : Bool) : Val → Conv
  | .nan =>
    match f.isInt, f.layout.nan with
    | false, some c => ⟨c, false, false⟩
    | _, _ => ⟨0, false, true⟩
  | .inf s =>
    if f.isInt then ⟨unsigned f.width (if s then intLo f.width esc else 2 ^ (f.width - 1) - 1), true, false⟩
    else if f.layout.sign then
      let b := if s then 2 ^ (f.width - 1) else 0
      match f.layout.inf with
      | some c => ⟨b + c, false, false⟩
      | none => ⟨b + f.layout.top, true, false⟩
    else if s then ⟨0, true, false⟩ else ⟨f.layout.top, true, false⟩
  | .fin s m e => convQ f esc s (shl m e) (shl 1 (-e))

/-- The conversion of R83 without escapes. -/
def conv (f : Fmt) (v : Val) : Conv := convE f false v

/-- The FP32 code of an exact quotient, with overflow to infinity (R82). -/
def fp32OfQ (neg : Bool) (num den : Nat) : Nat :=
  (if neg then 0x8000_0000 else 0) + min (roundCode (Fmt.layout .fp32) num den) 0x7F80_0000

/-- The FP32 rounding of an exact value (R82): beyond the largest finite value, an infinity. -/
def fp32 : Val → Nat
  | .nan => 0x7FC0_0000
  | .inf s => if s then 0xFF80_0000 else 0x7F80_0000
  | .fin s m e => fp32OfQ s (shl m e) (shl 1 (-e))

/-- The value of an FP32 code. -/
def ofFp32 (c : Nat) : Val := decode .fp32 c

/-- Signed magnitude as an integer, scaled to the exponent `e0 ≤ e`. -/
def scaled (s : Bool) (m : Nat) (e e0 : Int) : Int :=
  if s then -((shl m (e - e0) : Nat) : Int) else (shl m (e - e0) : Nat)

/-- The exact sum (R80, R81): an exact zero sum is +0 unless both operands are −0. -/
def Val.add : Val → Val → Val
  | .nan, _ => .nan
  | _, .nan => .nan
  | .inf a, .inf b => if a = b then .inf a else .nan
  | .inf a, _ => .inf a
  | _, .inf b => .inf b
  | .fin s m e, .fin t n f =>
    let g := min e f
    let x := scaled s m e g + scaled t n f g
    if x = 0 then .fin (s && t && decide (m = 0) && decide (n = 0)) 0 0
    else .fin (decide (x < 0)) x.natAbs g

/-- The exact product (R81). -/
def Val.mul : Val → Val → Val
  | .nan, _ => .nan
  | _, .nan => .nan
  | .inf a, .inf b => .inf (a != b)
  | .inf a, .fin s m _ => if m = 0 then .nan else .inf (a != s)
  | .fin s m _, .inf b => if m = 0 then .nan else .inf (s != b)
  | .fin s m e, .fin t n f => .fin (s != t) (m * n) (e + f)

/-- Numeric comparison of two values that are not NaN. -/
def Val.lt : Val → Val → Bool
  | .nan, _ => false
  | _, .nan => false
  | .inf a, .inf b => a && !b
  | .inf a, _ => a
  | _, .inf b => !b
  | .fin s m e, .fin t n f =>
    let g := min e f
    decide (scaled s m e g < scaled t n f g)

/-- Numeric equality of two values that are not NaN; −0 equals +0. -/
def Val.eq (a b : Val) : Bool :=
  match a, b with
  | .nan, _ => false
  | _, .nan => false
  | .inf a, .inf b => a == b
  | .inf _, _ => false
  | _, .inf _ => false
  | .fin s m e, .fin t n f =>
    let g := min e f
    decide (scaled s m e g = scaled t n f g)

/-- FP32 addition on codes (R82). -/
def fadd (a b : Nat) : Nat := fp32 ((ofFp32 a).add (ofFp32 b))
/-- FP32 multiplication on codes (R82). -/
def fmul (a b : Nat) : Nat := fp32 ((ofFp32 a).mul (ofFp32 b))
/-- FP32 fused multiply-add on codes, one rounding (R91). -/
def ffma (a b c : Nat) : Nat := fp32 (((ofFp32 a).mul (ofFp32 b)).add (ofFp32 c))
/-- FP32 negation on codes. -/
def fneg (a : Nat) : Nat := fp32 (ofFp32 a).negate

/-- The larger of two values; NaN if either is; +0 over −0 (R91). -/
def Val.max (a b : Val) : Val :=
  if a.isNan || b.isNan then .nan
  else if a.lt b then b
  else if b.lt a then a
  else if a.isZero then .fin (a.neg? && b.neg?) 0 0
  else a

/-- The smaller of two values; NaN if either is; −0 under +0 (R91). -/
def Val.min (a b : Val) : Val :=
  if a.isNan || b.isNan then .nan
  else if a.lt b then a
  else if b.lt a then b
  else if a.isZero then .fin (a.neg? || b.neg?) 0 0
  else a

/-- The quotient of two values rounded once into a format (R83 with exact quotients, R106).
`0 / 0` and `∞ / ∞` are NaN, `x / 0` is an infinity. -/
def convDiv (f : Fmt) (esc : Bool) (a b : Val) : Conv :=
  match a, b with
  | .nan, _ => convE f esc .nan
  | _, .nan => convE f esc .nan
  | .inf _, .inf _ => convE f esc .nan
  | .inf s, .fin t _ _ => convE f esc (.inf (s != t))
  | .fin s _ _, .inf t => convE f esc (.fin (s != t) 0 0)
  | .fin s m e, .fin t n g =>
    if n = 0 then (if m = 0 then convE f esc .nan else convE f esc (.inf (s != t)))
    else convQ f esc (s != t) (shl m (e - g)) (n * shl 1 (g - e))

/-- FP32 division with overflow to infinity (R82). -/
def fdiv (a b : Val) : Nat :=
  match a, b with
  | .fin s m e, .fin t n g =>
    if n = 0 then (if m = 0 then 0x7FC0_0000 else fp32 (.inf (s != t)))
    else fp32OfQ (s != t) (shl m (e - g)) (n * shl 1 (g - e))
  | .inf s, .fin t _ _ => fp32 (.inf (s != t))
  | .fin s _ _, .inf t => fp32 (.fin (s != t) 0 0)
  | _, _ => 0x7FC0_0000

/-! ## The vector functions (R92), correctly rounded -/

/-- Integer square root, one result bit per unit of fuel from bit `k` down. -/
def isqrtFrom (n : Nat) : Nat → Nat → Nat
  | 0, r => if (r + 1) * (r + 1) ≤ n then r + 1 else r
  | k + 1, r =>
    let t := r + 2 ^ (k + 1)
    isqrtFrom n k (if t * t ≤ n then t else r)

/-- `⌊√n⌋`. -/
def isqrt (n : Nat) : Nat := isqrtFrom n (n.log2 / 2 + 1) 0

/-- `1 / √(m × 2^e)` for a positive value, rounded to FP32 with ties away: the largest `n` with
`(2n − 1)² m 2^e ≤ 2^(2 − 2q)`, at the spacing `2^q` of the result's binade. The result is always normal. -/
def rsqrtCode (m : Nat) (e : Int) : Nat :=
  -- exponent k of the result: the largest k with 2^(2k) * m * 2^e ≤ 1
  let l : Int := (m.log2 : Int) + e
  let k0 : Int := -((l + 1) / 2) - 1
  let fits (k : Int) : Bool := decide (shl m (2 * k + e) ≤ shl 1 (-(2 * k + e)))
  let k := if fits (k0 + 1) then k0 + 1 else k0
  let q := k - 23
  let t : Int := 2 - 2 * q - e
  let n := (isqrt (shl 1 t / m) + 1) / 2
  n + (k + 126).toNat * 2 ^ 23

/-- Working precision, in bits, of the series below. -/
def prec : Nat := 256

/-- `ln 2 × 2^prec`, from the series of `1 / (k 2^k)`. -/
def ln2Sum : Nat → Nat
  | 0 => 0
  | k + 1 => ln2Sum k + 2 ^ prec / ((k + 1) * 2 ^ (k + 1))

/-- `ln 2 × 2^prec`. -/
def ln2Fix : Nat := ln2Sum 256

/-- `e^x × 2^prec` for `x = t / 2^prec` in `[0, 1)`: Horner's form of the Taylor series, term `k` down to 1. -/
def expSum (t : Nat) : Nat → Nat → Nat
  | 0, acc => acc
  | k + 1, acc => expSum t k (2 ^ prec + acc * t / 2 ^ prec / (k + 1))

/-- `e^x × 2^prec` for `x = t / 2^prec`. -/
def expFix (t : Nat) : Nat := expSum t 70 (2 ^ prec)

/-- The series of `2 atanh z` with `z = t / 2^prec`: `2 (z + z³/3 + …)`; `p` is the running odd power. -/
def atanhSum (z2 : Nat) : Nat → Nat → Nat → Nat
  | 0, _, _ => 0
  | k + 1, n, p => p / n + atanhSum z2 k (n + 2) (p * z2 / 2 ^ prec)

/-- `ln (m / 2^l) × 2^prec` for a mantissa in `[1, 2)`. -/
def lnFix (m l : Nat) : Nat :=
  let z := ((m - 2 ^ l) <<< prec) / (m + 2 ^ l)
  2 * atanhSum (z * z / 2 ^ prec) 90 1 z

/-- `2^a` (R92): exact at integers; beyond the FP32 range an infinity or zero. PRESUMED (log 99). -/
def fexp2 (a : Val) : Nat :=
  match a with
  | .nan => 0x7FC0_0000
  | .inf s => if s then 0 else 0x7F80_0000
  | .fin s m e =>
    if m = 0 then 0x3F80_0000
    else
      -- beyond ±2^9 the result is out of range whatever the rest
      if 10 ≤ (m.log2 : Int) + e then (if s then 0 else 0x7F80_0000)
      else
        -- a = i + f / 2^prec, with f truncated only below 2^-prec
        let t := scaled s (shl m (e + prec)) (0 : Int) 0
        let t := if e + prec < 0 then (if s then -1 else 1) else t
        let i := t / 2 ^ prec
        let f := (t % 2 ^ prec).toNat
        let y := if f = 0 then 2 ^ prec else expFix (f * ln2Fix / 2 ^ prec)
        fp32OfQ false (shl y i) (2 ^ prec * shl 1 (-i))

/-- `log2 a` (R92): NaN below zero, −infinity at ±0, exact at powers of two. PRESUMED (log 99). -/
def flog2 (a : Val) : Nat :=
  match a with
  | .nan => 0x7FC0_0000
  | .inf s => if s then 0x7FC0_0000 else 0x7F80_0000
  | .fin s m e =>
    if m = 0 then 0xFF80_0000
    else if s then 0x7FC0_0000
    else
      let l := m.log2
      let k : Int := (l : Int) + e
      if m = 2 ^ l then fp32 (Val.ofInt k)
      else
        let x : Int := k * 2 ^ prec + ((lnFix m l <<< prec) / ln2Fix : Nat)
        fp32OfQ (decide (x < 0)) x.natAbs (2 ^ prec)

/-- `1 / a` (R92). PRESUMED (log 99). -/
def frecip (a : Val) : Nat := fdiv (.fin false 1 0) a

/-- `1 / √a` (R92): NaN below zero, ±infinity at ±0. PRESUMED (log 99). -/
def frsqrt (a : Val) : Nat :=
  match a with
  | .nan => 0x7FC0_0000
  | .inf s => if s then 0x7FC0_0000 else 0
  | .fin s m e =>
    if m = 0 then fp32 (.inf s)
    else if s then 0x7FC0_0000
    else rsqrtCode m e

/-- Rounding to an integer by FUNC 3-6 of VUNARY: floor, ceiling, nearest with ties away, truncation;
a zero result keeps the sign of the source (R91). -/
def Val.toIntegral (func : Nat) : Val → Val
  | .fin s m e =>
    if 0 ≤ e then .fin s m e
    else
      let d := shl 1 (-e)
      let q := m / d
      let r := m % d
      let up :=
        if func = 3 then s && decide (r ≠ 0)
        else if func = 4 then !s && decide (r ≠ 0)
        else if func = 5 then decide (d ≤ 2 * r)
        else false
      .fin s (if up then q + 1 else q) 0
  | v => v

/-- Saturation to INT32 and whether it saturated (R82). -/
def sat32 (x : Int) : Int × Bool :=
  if 2 ^ 31 - 1 < x then (2 ^ 31 - 1, true)
  else if x < -(2 ^ 31) then (-(2 ^ 31), true)
  else (x, false)

/-- The escape code of a format (R101). -/
def Fmt.escape (f : Fmt) : Nat := 2 ^ (f.width - 1)

/-- Qmax of a narrow format, as numerator and power of two (R104). -/
def Fmt.qmax : Fmt → Val
  | .int4 => .fin false 7 0
  | .int8 => .fin false 127 0
  | .int16 => .fin false 32767 0
  | .e2m1 => .fin false 6 0
  | .e3m2 => .fin false 28 0
  | .e2m3 => .fin false 15 (-1)
  | .e4m3 => .fin false 448 0
  | .e5m2 => .fin false 57344 0
  | f => decodeF f.layout f.layout.top f.width

/-- Q′ = Qmax × 15 / 16 (R104). -/
def Fmt.qprime (f : Fmt) : Val := f.qmax.mul (.fin false 15 (-4))

/-- The group length G that GROUP selects (R94). -/
def groupLen (g : Nat) : Nat := if g = 0 then 32 else if g = 1 then 64 else 128

end Sys2Proof.Machine
end

