-- ==== Sys2Proof/Machine/Sparse.lean ====
section
/-! DEFINITION. Machine/Sparse.lean: tables with a value that unlisted keys read as.

Every addressed memory and every register array of the block is such a table: an association list
in ONE canonical form (keys strictly rising, no entry equal to the unlisted value), so that equal
contents are equal data. -/

namespace Sys2Proof.Machine

/-- A table from keys to values, listed in rising order of keys. -/
abbrev Table (α : Type) := List (Nat × α)

/-- The value at key `k`; `d` is what an unlisted key reads as. -/
def look {α : Type} (d : α) : Table α → Nat → α
  | [], _ => d
  | (j, v) :: t, k => if j = k then v else if k < j then d else look d t k

/-- `m` with key `k` holding `v`; writing the unlisted value `d` removes the entry. -/
def put {α : Type} [DecidableEq α] (d : α) : Table α → Nat → α → Table α
  | [], k, v => if v = d then [] else [(k, v)]
  | (j, w) :: t, k, v =>
    if k < j then (if v = d then (j, w) :: t else (k, v) :: (j, w) :: t)
    else if j = k then (if v = d then t else (k, v) :: t)
    else (j, w) :: put d t k v

/-- `m` with every key of `[lo, hi)` unlisted. -/
def wipe {α : Type} (m : Table α) (lo hi : Nat) : Table α :=
  m.filter (fun e => decide (e.1 < lo) || decide (hi ≤ e.1))

/-- `m` with the value at `k` changed by `f`. -/
def tweak {α : Type} [DecidableEq α] (d : α) (m : Table α) (k : Nat) (f : α → α) : Table α :=
  put d m k (f (look d m k))

/-- Consecutive values written from key `k` on. -/
def putAll {α : Type} [DecidableEq α] (d : α) : Table α → Nat → List α → Table α
  | m, _, [] => m
  | m, k, v :: vs => putAll d (put d m k v) (k + 1) vs

/-- `n` consecutive values from key `k` on. -/
def lookAll {α : Type} (d : α) (m : Table α) (k n : Nat) : List α :=
  (List.range n).map (fun i => look d m (k + i))

/-- The canonical form: keys strictly rising and above `lo`, no entry equal to `d`. -/
def canonFrom {α : Type} [DecidableEq α] (d : α) : Nat → Table α → Bool
  | _, [] => true
  | lo, (j, v) :: t => decide (lo ≤ j) && decide (v ≠ d) && canonFrom d (j + 1) t

/-- The canonical form of a whole table. -/
def canon {α : Type} [DecidableEq α] (d : α) (m : Table α) : Bool := canonFrom d 0 m

end Sys2Proof.Machine
end

