-- ==== Sys2Proof/Machine/State.lean ====
section
/-! DEFINITION. Machine/State.lean: everything the spec gives the block, as plain data, and State.reset. -/

namespace Sys2Proof.Machine

open Sys2Proof

/-! ## Scratchpads, claims and queues (chapters 3 and 6) -/

/-- A scratchpad line (R112, R129): its 64 bytes, the 4-bit step tag (R99), the POISON and COLLIDED bits,
the FLAGGED mark its data carries (R19), the stored upsets (wrong bits of word `w` in bits [2w + 1 : 2w], 2 for more than one,
and bit 16 for a parity error of the side bits, R129) and the errors met since the last write, up to 2 (R130). DESIGN CHOICE (log 106). -/
structure Line where
  bits : LineBits
  tag : BitVec 4
  poison : Bool
  collided : Bool
  flagged : Bool
  upset : Nat
  errs : Nat
  deriving DecidableEq, Repr

/-- A zero-filled line (R114). DESIGN CHOICE (log 11). -/
def Line.zero : Line := ⟨0, 0, false, false, false, 0, 0⟩

/-- Wrong bits of word `w` of a line as stored: 0, 1, or 2 for more (R129). -/
def Line.wrong (x : Line) (w : Nat) : Nat := x.upset / 4 ^ w % 4

/-- Words of a line with one wrong bit: each is corrected on a read (R129). -/
def Line.ces (x : Line) : Nat := ((List.range 8).filter (fun w => x.wrong w == 1)).length

/-- Uncorrectable errors of a line: words with two wrong bits or more, and a parity error of the side bits (R129). -/
def Line.ues (x : Line) : Nat := ((List.range 8).filter (fun w => decide (2 ≤ x.wrong w))).length + x.upset / 2 ^ 16 % 2

/-- What a write-back of the corrected words leaves of the upsets (R129). -/
def Line.uncorrected (x : Line) : Nat :=
  (List.range 8).foldl (fun a w => if 2 ≤ x.wrong w then a + x.wrong w * 4 ^ w else a) (x.upset / 2 ^ 16 % 2 * 2 ^ 16)

/-- A command in progress: its queue and its number among the commands the queue has started. -/
structure Holder where
  queue : QueueId
  seq : Nat
  deriving DecidableEq, Repr

/-- A claim of a line by a write (R121, R122): the bytes it enables, those of the present write of the whole line that have come (R99), whether it is
an engine write, which of its queue's requesters writes (R117: 0 an engine or a transfer, 1 fill, 2 copy, 3 TIME_READ), whether
it is the line's holder (a colliding loser is not), the bytes it has lost, and the line before it. -/
structure Claim where
  holder : Holder
  line : Nat
  mask : Nat
  got : Nat
  engine : Bool
  src : Nat
  holds : Bool
  lost : Nat
  collided : Bool
  old : Line
  poison : Bool
  flagged : Bool
  deriving DecidableEq, Repr

/-- One scratchpad, or Invar's sealed SRAM (R305): its lines, claims, powered and zeroing bank groups,
the spare rows in use per bank, the spare-row map (line to spare row, counted from 1, R130), lines whose repair waits for the end of a claim,
and a debug read that waits (R133). -/
structure Core where
  lines : Table Line
  claims : List Claim
  on : BitVec 4
  zeroing : BitVec 4
  spareUsed : Table Nat
  spareMap : Table Nat
  repairs : List Nat
  dbgWait : Bool
  deriving DecidableEq, Repr

/-- A transfer descriptor as the engine copied it (R136-R138). -/
structure Unroll where
  on : Bool
  outDim : Nat
  tapDim : Nat
  stride : Nat
  dil : Nat
  padLo : Nat
  extM1 : Nat
  axis : Int
  deriving DecidableEq, Repr

/-- A transfer descriptor (the *Transfer descriptor* table of chapter 7). -/
structure XDesc where
  srcAddr : Nat
  dstAddr : Nat
  srcKind : Nat
  dstKind : Nat
  srcDevice : Nat
  dstDevice : Nat
  elemLog2 : Nat
  padMode : Nat
  countM1 : List Nat
  srcStride : List Int
  dstStride : List Int
  unrollA : Unroll
  unrollB : Unroll
  padValue : Nat
  reserved : Bool
  deriving DecidableEq, Repr

/-- Why a running command waits. -/
inductive Stall where
  | none
  | credit (ch : Nat)
  | fault (page : Nat)
  | record (page : Nat)
  | remote
  | slot
  | token
  | line
  deriving DecidableEq, Repr

/-- The engine state of a command that moves data in steps (XFER, PGTOUCH, TIME_READ and reads of
window descriptors): where it stands, the token being formed, the marks of its descriptor's lines (R123, R129), and the pages refused to it, each with a
direction (R146-R148); `late` says that the command was past its launch tick when it became ready (R68), and `cover` which bytes of which line of
stack memory its latest writes have covered (R280). -/
structure Mover where
  desc : Option XDesc
  bad : Bool
  next : Nat
  sent : Nat
  spent : Bool
  buf : List Byte
  flagged : Bool
  poisoned : Bool
  descFlagged : Bool
  descPoisoned : Bool
  held : Option (List Byte)
  refused : List Nat
  stall : Stall
  late : Bool
  cover : Nat × Nat
  deriving DecidableEq, Repr

/-- No engine state. -/
def Mover.idle : Mover := ⟨none, false, 0, 0, false, [], false, false, false, false, none, [], .none, false, (0, 0)⟩

/-- A command in progress in a queue (R63): `worked` says that its work is finished,
`done` that it has completed but an earlier command has not, `tick` its reference tick S (R236). -/
structure InProg where
  seq : Nat
  pos : Nat
  tick : Nat
  cmd : Command
  taken : Bool
  worked : Bool
  done : Bool
  mover : Mover
  deriving DecidableEq, Repr

/-- Q_WAIT (R74): REASON, COUNTER, BANK and CHANNEL. -/
structure QWait where
  reason : Nat
  counter : Nat
  bank : Bool
  channel : Nat
  deriving DecidableEq, Repr

/-- Running. -/
def QWait.running : QWait := ⟨0, 0, false, 0⟩

/-- A queue (R63-R66): the current list of the phase, the next command to start, whether an END command
has been started, the loop slots (`none`: inactive), what it waits for, the timer armed for the next
command, the commands in progress, oldest first, the number of commands started, the marks of
tokens its commands consumed, each with the running number of R71, and the place in the list of the first command that the fetch buffer holds
(`none`: it holds none of the list, R60). -/
structure QState where
  li : Nat
  pc : Nat
  ended : Bool
  slots : Vector (Option Nat) 4
  wait : QWait
  armed : Option Nat
  prog : List InProg
  seq : Nat
  marks : List (Nat × Nat)
  buffer : Option Nat
  deriving DecidableEq, Repr

/-- A queue that has never had a list; Q_WAIT reads its reset value. -/
def QState.start : QState :=
  ⟨0, 0, false, Vector.replicate 4 none, .running, none, [], 0, [], none⟩

/-- A launch timer (R67): its last scheduled tick, whether its launch is unresolved,
and the queue whose ready TIMED command waits for the tick. -/
structure LaunchTimer where
  sched : Nat
  busy : Bool
  waiting : Option QueueId
  deriving DecidableEq, Repr

/-- A timer that has never been used. -/
def LaunchTimer.unused : LaunchTimer := ⟨0, false, none⟩

/-! ## Channels (chapter 1) -/

/-- A channel table entry (R22). -/
structure Entry where
  kind : Nat
  state : Nat
  shed : Bool
  pinned : Bool
  sensorRate : Bool
  timeDerived : Bool
  shedDepth : Nat
  creditDepth : Nat
  source : Nat
  dest : Nat
  elemFormat : Nat
  layout : Nat
  width : Nat
  height : Nat
  depth : Nat
  tokenRows : Nat
  tokenBytes : Nat
  padValue : Nat
  multicast : Bool
  frameNumber : Nat
  epoch : Nat
  droppedSat : Bool
  flaggedSat : Bool
  poisonedSat : Bool
  dropped : Nat
  flagged : Nat
  poisoned : Nat
  digest : Nat
  lastTs : Nat
  deriving DecidableEq, Repr

/-- The header marks of a token (chapter 1, *Token header marks*). -/
structure Marks where
  frameStart : Bool
  frameEnd : Bool
  pad : Bool
  flagged : Bool
  poisoned : Bool
  shedGap : Bool
  deriving DecidableEq, Repr

/-- No mark. -/
def Marks.none : Marks := ⟨false, false, false, false, false, false⟩

/-- A token: its header and payload. -/
structure Token where
  marks : Marks
  frame : Nat
  epoch : Nat
  ts : Nat
  data : List Byte
  deriving DecidableEq, Repr

/-- What PUB takes from a completed pass (R259). -/
structure PassInfo where
  frame : Nat
  epoch : Nat
  digest : Nat
  bytes : Nat
  flags : Nat
  ts : Nat
  deriving DecidableEq, Repr

/-- The pass a channel is forming: its running CRC, tokens, marks and first TIMESTAMP (R32). -/
structure OpenPass where
  crc : Nat
  tokens : Nat
  flags : Nat
  ts : Nat
  deriving DecidableEq, Repr

/-- One receiver of a channel: the credits its sender holds for it, the tokens held back for it under shed,
and whether the rest of its frame is being discarded and the next token carries SHED_GAP (R20, R21). -/
structure Receiver where
  credits : Nat
  backlog : List Token
  skipping : Bool
  gap : Bool
  deriving DecidableEq, Repr

/-- A channel while the stream runs: its entry, its receivers, credits on their way back, the pass in
progress, the passes completed and taken by PUB, tokens delivered and not yet consumed,
whole lines written since FRAME_START (R99), tokens sent since load (R303), whether a frame has started,
the transfers it waits for (STALLED), tokens written to its ring buffer, and the token being received over Solder. -/
structure Chan where
  ent : Entry
  recv : List Receiver
  flying : Nat
  pass : Option OpenPass
  passes : Nat
  taken : Nat
  last : PassInfo
  inbox : List Token
  lineNo : Nat
  tokens : Nat
  started : Bool
  stalls : Nat
  ring : Nat
  rx : Option Token
  deriving DecidableEq, Repr

/-- The snapshot of CHN_SEL (R28). -/
structure Snap where
  pending : Bool
  valid : Bool
  undefined : Bool
  words : List Word
  deriving DecidableEq, Repr

/-! ## The loaded stream (chapter 2) -/

/-- A unit record of TOPOLOGY. -/
structure UnitRec where
  unit : Nat
  role : Nat
  phaseMask : Nat
  param : Nat
  deriving DecidableEq, Repr

/-- A Solder relay entry (R294). -/
structure Relay where
  first : Nat
  count : Nat
  inPort : Nat
  outPorts : Nat
  isLocal : Bool
  deriving DecidableEq, Repr

/-- A claim record: its resource type and index, OWNER and MODE. -/
structure ClaimRec where
  kind : Nat
  index : Nat
  owner : Nat
  mode : Nat
  deriving DecidableEq, Repr

/-- A page run of MEMORY. -/
structure PageRun where
  virt : Nat
  count : Nat
  phys : Nat
  large : Bool
  readOnly : Bool
  retain : Bool
  isLazy : Bool
  deriving DecidableEq, Repr

/-- A window map entry. -/
structure WinMap where
  aperture : Nat
  window : Nat
  hostWrite : Bool
  publish : Bool
  deriving DecidableEq, Repr

/-- A scratchpad partition; `base` and `size` in bytes. -/
structure Partition where
  core : Nat
  kind : Nat
  base : Nat
  size : Nat
  channel : Nat
  deriving DecidableEq, Repr

/-- A phase record of a schedule set. -/
structure PhaseRec where
  phase : Nat
  opPreferred : Nat
  opMin : Nat
  capPriority : Nat
  maxUnpinned : Nat
  deriving DecidableEq, Repr

/-- A schedule set: requirements (unit, rate) and phases. -/
structure SchedSet where
  reqs : List (Nat × Nat)
  phases : List PhaseRec
  deriving DecidableEq, Repr

/-- A list record of a program set with its commands; `index` is its place in the set. -/
structure ListRec where
  queue : QueueId
  index : Nat
  phase : Nat
  cmds : List Command
  deriving DecidableEq, Repr

/-- A placement (R46); 0xFF in a map is unused. -/
structure Placement where
  programSet : Nat
  scheduleSet : Nat
  coreMap : List Nat
  quadrants : List Nat
  eeMap : List Nat
  ppMap : List Nat
  stackMap : List Nat
  minLinks : List Nat
  minLanes : List Nat
  deriving DecidableEq, Repr

/-- A weight record. -/
structure WeightRec where
  id : Nat
  source : Nat
  format : Nat
  flags : Nat
  length : Nat
  srcAddr : Nat
  destAddr : Nat
  digest : List Byte
  deriving DecidableEq, Repr

/-- A LEGAL segment (R48): its header, DIGEST, claims, channels, program and parameters. -/
structure Legal where
  instrument : Nat
  version : Nat
  digest : List Byte
  claims : List ClaimRec
  entries : List Entry
  lists : List ListRec
  baud : Nat
  recordPage : Nat
  recordPages : Nat
  ckptPage : Nat
  ckptSlots : Nat
  values : List Byte
  blob : List Byte
  blobLine : Nat
  deriving DecidableEq, Repr

/-- A stream whose sections have been read (R38-R48). -/
structure Stream where
  id : Nat
  version : Nat
  reload : Bool
  deviceNumber : Nat
  deviceCount : Nat
  topologyKind : Nat
  dimX : Nat
  dimY : Nat
  dimZ : Nat
  structureDigest : List Byte
  message : List Byte
  keySlot : Nat
  units : List UnitRec
  relays : List Relay
  claims : List ClaimRec
  entries : List Entry
  tableBase : Nat
  stacksRequired : Nat
  runs : List PageRun
  winMap : List WinMap
  partitions : List Partition
  schedules : List SchedSet
  programs : List (List ListRec)
  weights : List WeightRec
  placements : List Placement
  legal : Option Legal
  deriving DecidableEq, Repr

/-- An interleave description (R249). -/
structure Interleave where
  offset : Nat
  masks : List Nat
  deriving DecidableEq, Repr

/-- The identity. -/
def Interleave.identity : Interleave := ⟨0, (List.range 28).map (fun j => 2 ^ (j + 5))⟩

/-- The stages of a load in which the loader can stand (DEV_LOAD_STATUS.STAGE, R54). -/
inductive LoadStage where
  | idle | receiving | checking | draining | scrubbing | weights | starting | switching
  deriving DecidableEq, Repr

/-- What the loader holds while a load is in progress (R49-R54): the image received, the staged stream,
the weights still to be hashed or copied, the bytes of the weight being uploaded, whether the scrub has been done, CAL_ENABLE_N low at check 10,
the image of the loaded stream in the loader region and its original source, and the interleave in effect as the load started (R251). -/
structure Loader where
  stage : LoadStage
  busy : Bool
  source : Nat
  image : List Byte
  staged : Option Stream
  placement : Nat
  todo : List WeightRec
  copying : Bool
  wanted : Option Nat
  blob : List Byte
  uploads : List (Nat × List Byte)
  fallback : List Nat
  reloadReady : Bool
  inputsHeld : Bool
  scrubbed : Bool
  calLow : Bool
  copy : List Byte
  origin : Nat
  map : Interleave
  deriving DecidableEq, Repr

/-- DEV_JOB_STATUS.STATE (R72, R73). -/
inductive JobState where
  | noStream | running | killing | killed | rearming
  deriving DecidableEq, Repr

/-- The code of STATE. -/
def JobState.code : JobState → Nat
  | .noStream => 0 | .running => 1 | .killing => 2 | .killed => 3 | .rearming => 4

/-- A barrier's arrivals in the current phase: the queues that have arrived, whether every participant of this device has
arrived (R69) and at which tick, the devices below it in the tree that have reported, and whether any of them was killed (R296). -/
structure Arrivals where
  queues : List QueueId
  reported : Bool
  since : Nat
  kids : List Nat
  broken : Bool
  deriving DecidableEq, Repr

/-- The main stream's run state (R66, R69-R73): job state, phase, lists of the active placement,
doorbell counters, SUBMITTED and COMPLETED, the marks number at each doorbell's last COMPLETE,
barriers, publication counters, doorbell writes held during a restart of the management controller,
and whether the queues hold at the stream end for a reload. -/
structure Job where
  state : JobState
  phase : Nat
  lists : List ListRec
  invLists : List ListRec
  doorbell : Table Nat
  submitted : Table Nat
  completed : Table Nat
  dbMark : Table Nat
  markNo : Nat
  barriers : Table Arrivals
  pubCount : Table Nat
  heldRings : List Word
  holding : Bool
  deriving DecidableEq, Repr

/-- No arrival. -/
def Arrivals.none : Arrivals := ⟨[], false, 0, [], false⟩

/-! ## Page table and faults (chapter 7) -/

/-- A fault record (R146). -/
structure FaultRec where
  page : Nat
  endpoint : Nat
  channel : Nat
  cause : Nat
  state : Nat
  dir : Nat
  command : Nat
  coord : List Nat
  sequence : Nat
  holder : Option Holder
  deriving DecidableEq, Repr

/-- A page being filled (R147, R150): its key (the first page of a LARGE page), kind of fill
(1 zero, 2 neighbour, 3 host) and the next 4 KiB part a host fill asks for. -/
structure Fill where
  key : Nat
  kind : Nat
  part : Nat
  deriving DecidableEq, Repr

/-- The fault path of the management controller (R146-R151). -/
structure Faults where
  records : List FaultRec
  waiting : List FaultRec
  last : Option FaultRec
  seq : Nat
  fills : List Fill
  request : Option Nat
  deriving DecidableEq, Repr

/-! ## Pewter edge engines (chapter 8) -/

/-- A run of outputs of one position in an output buffer, with its marks. -/
structure OutRun where
  data : List Byte
  poisoned : Bool
  flagged : Bool
  deriving DecidableEq, Repr

/-- A Pewter engine's stores (R164): the line buffer and its next line, the weight store and its next line,
and the output buffer, oldest first. -/
structure Pewter where
  buf : Table Line
  next : Nat
  weights : Table Line
  wnext : Nat
  out : List OutRun
  deriving DecidableEq, Repr

/-- Empty stores. -/
def Pewter.empty : Pewter := ⟨[], 0, [], 0, []⟩

/-! ## Solder ports (chapter 14) -/

/-- A Solder port (R285-R288): lanes in use, the trained spare, lanes retraining in the background, retired and parked lanes,
whether the port retrains, what is known of the neighbour, the replay buffer oldest first, packets that wait for it,
the next sequence numbers sent and expected, failures of the packet at the head of the replay buffer, packets received since the last acknowledgement,
and the last LINK_CTRL sent (NACK, SEQ). -/
structure Port where
  inUse : BitVec 5
  spare : BitVec 5
  training : BitVec 5
  retired : BitVec 5
  parked : BitVec 5
  retraining : Bool
  neighbour : Nat
  shape : Option Shape
  tx : List Packet
  waiting : List Packet
  txSeq : Nat
  rxSeq : Nat
  fails : Nat
  unacked : Nat
  ctl : Option (Bool × Nat)
  rot : Nat
  deriving DecidableEq, Repr

/-- A port that has not been trained. -/
def Port.down : Port := ⟨0, 0, 0, 0, 0, false, 0, none, [], [], 0, 0, 0, 0, none, 0⟩

/-- An access to a neighbour's memory that has not been answered (R142). -/
structure RemoteReq where
  holder : Holder
  device : Nat
  write : Bool
  addr : Nat
  len : Nat
  deriving DecidableEq, Repr

/-! ## Cameras and picture pipelines (chapters 9 and 10) -/

/-- A parameter set in effect: its SET_ID and its block. -/
structure PSet where
  setId : Nat
  data : List Byte
  deriving DecidableEq, Repr

/-- A pending parameter set (R180): its group, target frame and epoch, and whether it is late. -/
structure Pending where
  group : Nat
  frame : Nat
  epoch : Nat
  setId : Nat
  data : List Byte
  late : Bool
  done : Nat
  deriving DecidableEq, Repr

/-- A line as the camera port fitted it (R177): WIDTH codes, how many of them arrived, its FLAGGED and POISONED marks, and
whether it was kept (a line dropped for want of room is not, R185). -/
structure RawLine where
  codes : List Nat
  valid : Nat
  flagged : Bool
  poisoned : Bool
  here : Bool
  deriving DecidableEq, Repr

/-- An exposure of a frame: 0 not started, 1 open, 2 closed; its lines, the counts of the frame record, and the ticks of its last
packet and of its last line. -/
structure Exposure where
  phase : Nat
  lines : List RawLine
  rx : Nat
  short : Nat
  long : Nat
  pad : Nat
  extra : Nat
  last : Nat
  lineTick : Nat
  deriving DecidableEq, Repr

/-- An exposure that has not started. -/
def Exposure.none : Exposure := ⟨0, [], 0, 0, 0, 0, 0, 0, 0⟩

/-- PP_BAND's setting (R197): ring positions, band rows and halo rows. -/
structure Band where
  cores : Nat
  rows : Nat
  halo : Nat
  deriving DecidableEq, Repr

/-- A token that a pipeline has formed and not yet issued. -/
structure OutTok where
  chan : Nat
  marks : Marks
  frame : Nat
  epoch : Nat
  ts : Nat
  data : List Byte
  digested : List Byte
  deriving DecidableEq, Repr

/-- A frame between its frame start and the end of its processing: numbers and ticks, exposures, the flags and counts of
the frame record, the parameter sets in effect for it, the static defects read for it, the band setting, the ring slot of a
memory-fed frame, the next output row, and tokens formed and not yet issued. -/
structure Frame where
  number : Nat
  epoch : Nat
  sensorFn : Nat
  fs : Nat
  fe : Nat
  trig : Nat
  skip : Nat
  exps : List Exposure
  short : Bool
  long : Bool
  feMissing : Bool
  timeout : Bool
  overrate : Bool
  flagged : Bool
  late : Bool
  memFed : Bool
  tight : Bool
  cut : Bool
  crcErr : Nat
  ecc : Nat
  stagger : Nat
  dynamic : Nat
  emb : List Byte
  user : List Byte
  sets : List (Option PSet)
  statics : List (Nat × Nat)
  band : Option Band
  slot : Nat
  row : Nat
  outq : List OutTok
  deriving DecidableEq, Repr

/-- What the back end pairs with a frame it processes (R204). -/
structure FrameInfo where
  frame : Nat
  epoch : Nat
  ts : Nat
  flagged : Bool
  poisoned : Bool
  deriving DecidableEq, Repr

/-- What the ROM default stream knows of a camera (R56, R57, R264): whether packets have come, the virtual channel and data type it took, the frame being
measured (pixels of a line, lines, whether all lines agree), the first frame of the pair, the learned width and height, whether a pair has disagreed,
the statistics of the previous frame, and the number of its last publication. -/
structure Learn where
  link : Bool
  vc : Option Nat
  dt : Option Nat
  frame : Option (Nat × Nat × Bool)
  first : Option (Nat × Nat × Bool)
  size : Option (Nat × Nat)
  retrying : Bool
  stats : List Byte
  seq : Nat
  deriving DecidableEq, Repr

/-- Nothing is known. -/
def Learn.nothing : Learn := ⟨false, none, none, none, none, none, false, [], 0⟩

/-- A camera (R173-R195): its parameter sets in effect and pending, whether a frame start has been accepted, the number, epoch,
sensor number and tick of the latest, whether that frame broke a declared interval, reference frames of sensor writes by group,
the band setting and the one that waits, its frames oldest first, and whether its input is closed.
`bsets` and `bpending` are the back end's; `records` the frames the back end has not yet used;
`back` the last frame the back end has started, `spread` the extremes of each output's channels over the previous frame (R211), `learn` what the
default stream knows of it. -/
structure Camera where
  sets : List (Option PSet)
  pending : List Pending
  started : Bool
  number : Nat
  epoch : Nat
  fsPrev : Nat
  fsTick : Nat
  tight : Bool
  refs : Table (Option (Nat × Nat))
  band : Option Band
  bandNext : Option Band
  frames : List Frame
  closed : Bool
  bsets : List (Option PSet)
  bpending : List Pending
  records : List FrameInfo
  back : Option (Nat × Nat)
  spread : List (Nat × Nat)
  learn : Learn
  lateNext : Bool
  starts : List (Nat × Nat × Nat)
  deriving DecidableEq, Repr

/-- A camera as a full load leaves it. -/
def Camera.idle : Camera :=
  ⟨List.replicate 8 none, [], false, 0, 0, 0, 0, false, [], none, none, [], false, List.replicate 8 none, [], [], none, [], Learn.nothing, false, []⟩

/-- The frame that a back end takes from memory: its camera, its pairing, its pixel rows, and marks of its rows. -/
structure BackFrame where
  camera : Nat
  info : FrameInfo
  rows : List (List (List Nat))
  flagged : Bool
  poisoned : Bool
  deriving DecidableEq, Repr

/-- A picture pipeline (R188, R193, R204): the memory-fed frame in progress with its camera, records that wait at ports
0x31-0x34, oldest first, the back end's frame, and output tokens formed and not yet issued. -/
structure Pipeline where
  fed : Option (Nat × Frame)
  recq : List (List (List OutTok))
  back : Option BackFrame
  outq : List OutTok
  deriving DecidableEq, Repr

/-- An idle pipeline. -/
def Pipeline.idle : Pipeline := ⟨none, [[], [], [], []], none, []⟩

/-! ## Time, event pins and captures (chapter 11) -/

/-- A TIMED pin action that waits for its launch tick (R236). -/
structure Armed where
  timer : Nat
  tick : Nat
  holder : Holder
  body : Body
  deriving DecidableEq, Repr

/-- An armed capture (R234): selected edges, its reference tick, and its windows (`length` 0: none). -/
structure Capture where
  edges : Nat
  start : Nat
  length : Nat
  period : Nat
  count : Nat
  deriving DecidableEq, Repr

/-- The window in progress of a capture (R235): its index, first and last edge, count, and its flags. -/
structure Window where
  index : Nat
  first : Nat
  last : Nat
  count : Nat
  marginal : Bool
  stepped : Bool
  deriving DecidableEq, Repr

/-- A window that has seen no edge. -/
def Window.fresh (i : Nat) : Window := ⟨i, 0, 0, 0, false, false⟩

/-- An event pin (R227-R241): the level it drives, the level at its ball as an input, a pulse in progress with the level it returns to and the tick
at which it does, its armed capture and window, its capture count, whether records were lost before the next, the tick of the previous captured edge,
the latest capture (tick and record bytes 0x08-0x0B), and the converter lane that captures. -/
structure Pin where
  level : Bool
  input : Bool
  pulse : Option (Bool × Nat)
  cap : Option Capture
  win : Window
  seq : Nat
  lost : Bool
  prev : Option Nat
  last : Nat × Nat
  lane : Bool
  deriving DecidableEq, Repr

/-- A pin at reset. -/
def Pin.idle : Pin := ⟨false, false, none, none, Window.fresh 0, 0, false, none, (0, 0), false⟩

/-- A pulse generator (R239): whether it runs, its pin, S, WIDTH, period as a quotient, COUNT (0: endless), the number of the pulse due or in progress,
and whether that pulse is in progress. -/
structure Gen where
  running : Bool
  pin : Nat
  start : Nat
  width : Nat
  perN : Nat
  perD : Nat
  count : Nat
  k : Nat
  high : Bool
  deriving DecidableEq, Repr

/-- A stopped generator. -/
def Gen.idle : Gen := ⟨false, 0, 0, 0, 0, 1, 0, 0, false⟩

/-- A capture or window record that waits for its token. -/
structure Rec where
  tick : Nat
  pin : Nat
  data : List Byte
  digested : List Byte
  deriving DecidableEq, Repr

/-- A record port (0x20-0x23): its records in tick order, and whether tREC_FLUSH has passed. -/
structure RecPort where
  recs : List Rec
  due : Bool
  deriving DecidableEq, Repr

/-- What a Solder neighbour's time messages say (R220, R221), and whether its time is VALID (R218). -/
structure Neigh where
  rank : Nat
  master : Nat
  sender : Nat
  hops : Nat
  valid : Bool
  deriving DecidableEq, Repr

/-- A Solder port's time exchange (R221): the neighbour, the next SEQ, the last SEQ received, t1 and t2 of the latest SYNC, t3 of the request sent, in 1/256 tick,
and the measured asymmetry. -/
structure TimePort where
  neigh : Option Neigh
  seq : Nat
  rxSeq : Option Nat
  t1 : Nat
  t2 : Nat
  t3 : Nat
  asym : Int
  deriving DecidableEq, Repr

/-- A time port that has heard nothing. -/
def TimePort.silent : TimePort := ⟨none, 0, none, 0, 0, 0, 0⟩

/-- The time unit (R214-R224, R240, R241): source in effect, its state, the master and the hops to it, the parent port, the tick of the latest PPS_IN edge
and whether there was one, REF_10M_IN present, the last measured offset in 1/256 tick, the frequency correction, the tick at which PPS_OUT falls,
armed actions, pins, generators, record ports, Solder time ports, the last calibration's tick, latched high words, the PTP settings in effect, whether the PTP time
lies before the epoch (R214), the offset that is still slewed away in 1/256 tick, and the fraction of a tick carried in 2^-40 (R215, R216). -/
structure TimeUnit where
  source : Nat
  locked : Bool
  holdover : Bool
  valid : Bool
  master : Nat
  hops : Nat
  parent : Option Nat
  pps : Option Nat
  ref : Bool
  offset : Int
  freq : Int
  ppsOut : Nat
  armed : List Armed
  pins : Vector Pin 32
  gens : Vector Gen 32
  recPorts : Vector RecPort 4
  links : Vector TimePort 8
  calLast : Nat
  latchNow : Nat
  latchCal : Nat
  latchCap : Nat
  ptp : Word
  early : Bool
  slew : Int
  frac : Nat
  deriving DecidableEq, Repr

/-- The time unit at power-on (TIME_STATUS: source 3; ETH_PTP_CTRL's reset settings). -/
def TimeUnit.reset : TimeUnit :=
  { source := 3, locked := false, holdover := false, valid := false, master := 0, hops := 0, parent := none, pps := none,
    ref := false, offset := 0, freq := 0, ppsOut := 0, armed := [], pins := Vector.replicate 32 Pin.idle,
    gens := Vector.replicate 32 Gen.idle, recPorts := Vector.replicate 4 ⟨[], false⟩,
    links := Vector.replicate 8 TimePort.silent, calLast := 0, latchNow := 0, latchCal := 0, latchCap := 0, ptp := 0x00F8_F800, early := false,
    slew := 0, frac := 0 }

/-- A sensor clock (R191): its frequency in units of 100 kHz, 0 when low, and a frequency that waits for the next whole second. -/
structure Mclk where
  freq : Nat
  next : Option Nat
  deriving DecidableEq, Repr

/-- A sensor-control port's in-band interrupts since the last read (CAMn_SCTL_IBI). -/
structure Ibi where
  payload : Nat
  address : Nat
  valid : Bool
  count : Nat
  deriving DecidableEq, Repr

/-! ## Ethernet ports (R225, R302-R304) -/

/-- A gate control list: its base tick, its cycle in ns, and its entries (GATES, INTERVAL_NS). -/
structure GateList where
  base : Nat
  cycle : Nat
  entries : List (Nat × Nat)
  deriving DecidableEq, Repr

/-- A frame that waits for its gate: its class, its channel, the command that sends it, whether it is its token's last. -/
structure EthFrame where
  queue : Nat
  chan : Nat
  holder : Holder
  last : Bool
  data : List Byte
  deriving DecidableEq, Repr

/-- A token that is being reassembled, with the segments received (R304). -/
structure RxToken where
  channel : Nat
  seq : Nat
  frame : Nat
  epoch : Nat
  ts : Nat
  marks : Nat
  ended : Bool
  segs : List (Nat × List Byte)
  deriving DecidableEq, Repr

/-- An Ethernet port: its flow table, the gate list in effect and the one that waits for its base time, the entry whose gates apply,
the tick at which its interval ends, frames held for a gate, the last frame sent, tokens being reassembled, and its PTP state. -/
structure EthPort where
  flows : Table (List Byte)
  gcl : Option GateList
  next : Option GateList
  gate : Nat
  gateEnd : Nat
  held : List EthFrame
  out : List Byte
  rx : List RxToken
  ptp : Nat
  asCapable : Bool
  deriving DecidableEq, Repr

/-- A port at reset. -/
def EthPort.idle : EthPort := ⟨[], none, none, 0, 0, [], [], [], 0, false⟩

/-! ## Multicast relays and collectives (R294-R299) -/

/-- A multicast channel that passes through this device: its group, channel and sender, the port it arrives on, its policy mark
(`some` SHED_DEPTH under shed), the token being received, its branches, credits each branch has returned, and credits sent upstream. -/
structure RelayFlow where
  group : Nat
  channel : Nat
  src : Nat
  inPort : Nat
  policy : Option Nat
  marks : Nat
  asm : List Byte
  branches : List Receiver
  back : List Nat
  up : Nat
  deriving DecidableEq, Repr

/-- A collective in progress on this device: its identifier, command and operands, its stage (0 reads SRC, 1 waits for digests,
2 exchanges data, 3 writes DST), the members heard from, whether any digest differed, this member's input bytes, the elements
as they are reduced with the number of reductions and gathers done on each, data received from each member, packets that wait,
and the tick since which a step waits for a peer. -/
structure Coll where
  holder : Holder
  ops : CollOps
  stage : Nat
  heard : List Nat
  bad : Bool
  own : List Byte
  work : List Nat
  level : List Nat
  inbox : List Packet
  gathered : Table (List Byte)
  result : List Byte
  since : Nat
  deriving DecidableEq, Repr

/-! ## Memory stacks (chapter 13) -/

/-- A command on its way to a stack, or one that has not been answered (R273-R277): its link, channel, first line and number of lines, the write data with
their WMASK line by line (none for a read), the write sequence number of its first line, lines that have come back or READ slots that have passed, and its failures. -/
structure StackCmd where
  link : Nat
  write : Bool
  chan : Nat
  line : Nat
  lines : Nat
  data : List (List Byte × Nat)
  seq : Nat
  got : Nat
  fails : Nat
  deriving DecidableEq, Repr

/-- A stack's links: in rotation, the trained spare, retraining, retired, parked; whether the stack is retired;
the ticks at which each link left rotation, rows with a corrected error since their last scrub, its temperature, commands on the links in command order (reads outstanding,
writes in the replay buffer), commands that wait for a link, the link that took the last command, the count of written lines of each link, and the CS
word that each link last drove (R273). -/
structure Stack where
  rotation : BitVec 9
  spare : BitVec 9
  training : BitVec 9
  retiredLinks : BitVec 9
  parked : BitVec 9
  retired : Bool
  leaves : List (Nat × Nat)
  suspect : Table Bool
  temp : Nat
  cmds : List StackCmd
  queued : List StackCmd
  turn : Nat
  wcount : Table Nat
  driven : Table Nat
  deriving DecidableEq, Repr

/-! ## Fuses, boot, security (chapters 17 and 18) -/

/-- A generation of a key slot (R354): 0 empty, 1 enrolled, 2 revoked, and its public keys. -/
structure Generation where
  state : Nat
  modulus : List Byte
  slh : List Byte
  deriving DecidableEq, Repr

/-- An empty generation. -/
def Generation.empty : Generation := ⟨0, [], []⟩

/-- What the fuses hold (R342, R353-R355, R313): key slots, the anti-rollback ladder, policy bits, the audit ladder, retired units
(bits [21:8] of their endpoints), cores retired for their sequencer, retired quadrants of each core (bit q), spare column segments used per quadrant, spare rows used per stack bank. -/
structure Otp where
  slots : Vector (Vector Generation 4) 3
  ladder : Nat
  vendorOff : Bool
  invarOff : Bool
  audit : Nat
  units : List Nat
  sequencers : List Nat
  quadrants : Table Nat
  columns : Table Nat
  stackRows : Table Nat
  deriving DecidableEq, Repr

/-- The boot chain and the running firmware (R53, R349-R352). -/
structure Boot where
  inReset : Bool
  straps : Nat
  mgmtAddr : Nat
  fwSlot : Nat
  failA : Nat
  failB : Nat
  recovery : Bool
  slow : Bool
  up : Bool
  release : Nat
  version : Nat
  measure : List Byte
  image : List Byte
  isDefault : Bool
  flashSlot : Nat
  deriving DecidableEq, Repr

/-- The token being checked (R355): its bytes, and whether it came through the upload buffer. -/
structure TokenCheck where
  data : List Byte
  uploaded : Bool
  deriving DecidableEq, Repr

/-- The security engine (R355-R358): the debug nonce, the token being checked, tokens accepted that wait for the next full load,
the debug permissions and their signer, and the attestation report: its snapshot while it is signed, whether a START waits,
whether a report is held and since which tick. `draws` counts random values taken; `jtag` is the instruction the JTAG port has in effect. -/
structure Security where
  nonce : List Byte
  token : Option TokenCheck
  unlocked : Bool
  perms : Nat
  signer : Nat
  snapshot : Option (List Byte)
  waiting : Bool
  held : Bool
  heldAt : Nat
  draws : Nat
  jtag : Nat
  deriving DecidableEq, Repr

/-- The upload buffer (R55): its bytes and the length of a staged token. -/
structure Upload where
  data : Table Byte
  staged : Nat
  deriving DecidableEq, Repr

/-! ## Host port and management sideband (chapter 12) -/

/-- A host channel: initialised, whether under the LPDDR5X standard, set point in operation, mode registers by set point × 256 + number, self refresh, deep sleep. -/
structure HostChan where
  trained : Bool
  isX : Bool
  fsp : Nat
  modes : Table Nat
  selfRefresh : Bool
  deepSleep : Bool
  deriving DecidableEq, Repr

/-- A channel at reset. -/
def HostChan.idle : HostChan := ⟨false, false, 0, [], false, false⟩

/-- The host port (R243-R254): its channels, HC_RESET_N, the descriptions in effect and staged, IL_STATUS, captures of a discovery with whether
too many or a malformed one arrived, whether a commit or a derivation is in progress, and the data of the last host read. -/
structure HostPort where
  chans : Vector HostChan 4
  resetLow : Bool
  active : Interleave
  staged : Interleave
  committed : Bool
  discovery : Bool
  result : Nat
  bit : Nat
  detail : Nat
  captures : List (Nat × Nat)
  overflow : Bool
  malformed : Bool
  committing : Bool
  deducing : Bool
  out : List Byte
  deriving DecidableEq, Repr

/-- The management controller and its sideband (R266, R268): a restart in progress, register writes held, the read pointer, the dynamic address,
whether the last MGMT command was NACKed and the bytes it returned. -/
structure Mgmt where
  restart : Bool
  held : List (Nat × Nat)
  pointer : Nat
  dynamic : Option Nat
  nack : Bool
  out : List Byte
  deriving DecidableEq, Repr

/-! ## Invar (chapter 15) -/

/-- What Invar keeps of the input a channel brought last: frame number, epoch, digest, marks (bits of R315's FLAGS), and a dropped input. -/
structure InvInput where
  frame : Nat
  epoch : Nat
  digest : Nat
  marks : Nat
  gap : Bool
  deriving DecidableEq, Repr

/-- Invar (R305-R320): the segment in effect, the DIGEST in effect (empty when there is none), whether it runs, calibration mode, the trail check, the refusal of the last change,
the chain (last sequence number, hash, nonce), records held, oldest first, records since the last checkpoint, its tick, the checkpoint
sequence number, the checkpoint being signed and one that is due, the latest checkpoint, whether a check has failed, inputs by channel, whether inputs are paused,
and the UART's last indication with its acknowledgement and the retries left. `out` is the last frame sent. -/
structure Invar where
  legal : Option Legal
  effect : List Byte
  running : Bool
  cal : Bool
  trailOk : Bool
  kept : Bool
  keptReason : Nat
  seq : Nat
  hash : List Byte
  nonce : List Byte
  records : List (List Byte)
  sinceCkpt : Nat
  ckptTick : Nat
  ckptSeq : Nat
  signing : Option (List Byte)
  due : Bool
  latest : List Byte
  failed : Bool
  inputs : Table (Option InvInput)
  paused : Bool
  last : List Byte
  acked : Bool
  retries : Nat
  out : List Byte
  deriving DecidableEq, Repr

/-- Invar before any segment has run. -/
def Invar.stopped : Invar :=
  ⟨none, [], false, false, false, false, 0, 0, [], [], [], 0, 0, 0, none, false, [], false, [], false, [], true, 0, []⟩

/-! ## Power controller (chapter 16) -/

/-- Why a ceiling or a freeze is in force: active, and since which tick. -/
structure Throttle where
  active : Bool
  since : Nat
  deriving DecidableEq, Repr

/-- The power controller (R324-R338). Points count from 0 (SUB0), 1 (SUB1), 2 (OP0) to 9 (OP7). `die` is VDD_CORE at the die in mV; ceilings by reason code;
samples in a row below the cap and below the current limit; a step sent to the regulator and not settled; droop detectors that fire;
the brake; the sensors' readings in 1/8 °C; measured core rates. -/
structure PowerCtl where
  die : Nat
  step : Option Nat
  cap : Nat
  thermal : Nat
  current : Nat
  capLow : Nat
  curLow : Nat
  brake : Bool
  droop : List Nat
  frozen : Bool
  matched : Option Nat
  matchShort : Bool
  reasons : Vector Throttle 7
  sensors : Table Nat
  rates : Table Nat
  hot : Nat
  deriving DecidableEq, Repr

/-- A thermal trip (R267, R337): STATE, tick, temperature, sensor, tick of the trip, STREAM_ID and the stream to reload. -/
structure Trip where
  state : Nat
  tick : Nat
  tj : Nat
  sensor : Nat
  stream : Nat
  image : List Byte
  deriving DecidableEq, Repr

/-! ## Retirement and tests (chapter 17) -/

/-- Tests and placement switches: the age of the oldest untested array segment in ms, a core without gaps, whether a test runs, a test that failed once,
whether a placement switch is in progress with its target, units whose interrupted pass runs again, and retirements that wait. -/
structure Health where
  ageMs : Nat
  starved : Option Nat
  testing : Bool
  suspect : Option Nat
  target : Option Nat
  fallback : Bool
  waiting : List Nat
  deriving DecidableEq, Repr

/-! ## The whole block -/

/-- The part (R1, R2): variant 0 M2S1, 1 M4S1, 2 M4S2, 3 M8S2, and the temperature grade. DESIGN CHOICE (log 1). -/
structure Part where
  variant : Nat
  gradeI : Bool
  deriving DecidableEq, Repr

/-- Stacks present (R1). -/
def Part.memStacks (p : Part) : Nat := [2, 4, 4, 8].getD p.variant 8

/-- Solder ports present: four per Solder die. -/
def Part.solderPorts (p : Part) : Nat := [4, 4, 8, 8].getD p.variant 8

/-- Ethernet ports present: two per Solder die. -/
def Part.ethPorts (p : Part) : Nat := [2, 2, 4, 4].getD p.variant 4

/-- The power envelope in W. -/
def Part.envelope (p : Part) : Nat := [50, 60, 66, 78].getD p.variant 78

/-- The power domains (R322, R323), by their numbers: on, switching on, waiting to switch off, and those of retired units. -/
structure Power where
  on : BitVec 96
  switching : BitVec 96
  offWait : BitVec 96
  retired : BitVec 96
  deriving DecidableEq, Repr

/-- The state of the block. `free` counts the free values taken (the model's own field), `now` is the 64-bit time counter, `regs` the cells behind
registers that no other field holds, `pending` the commands that wait, first in, first out. DESIGN CHOICE (log 104). -/
structure State where
  part : Part
  free : Nat
  now : Nat
  regs : Table Word
  job : Job
  loader : Loader
  stream : Option Stream
  placement : Nat
  queues : Table QState
  tokens : Table Half
  timers : Table LaunchTimer
  chans : List Chan
  cached : List Nat
  snap : Snap
  cores : Vector Core 7
  mem : List Host.Cell
  memBad : Table Bool
  pages : Table DWord
  faults : Faults
  window : List Host.Cell
  linkErr : Table Bool
  winErr : Table Nat
  ee : Vector Pewter 2
  ports : Vector Port 8
  remotes : List RemoteReq
  unreachable : Table Bool
  cams : Vector Camera 16
  pipes : Vector Pipeline 4
  trigs : Table (List Nat)
  time : TimeUnit
  mclk : Vector Mclk 16
  ibi : Vector Ibi 8
  bus : Vector (Option Body) 8
  power : Power
  eth : Vector EthPort 4
  relayed : List RelayFlow
  colls : List Coll
  early : List Packet
  served : List Packet
  memStacks : Vector Stack 8
  otp : Otp
  flash : List Host.Cell
  boot : Boot
  sec : Security
  upload : Upload
  host : HostPort
  mgmt : Mgmt
  inv : Invar
  pwr : PowerCtl
  trip : Option Trip
  health : Health
  pending : List Instr
  deriving DecidableEq, Repr

/-! ## Reset -/

/-- A core at reset: nothing powered, nothing stored. -/
def Core.reset : Core := ⟨[], [], 0, 0, [], [], [], false⟩

/-- A stack at power-on: L0-L7 in rotation, L8 the trained spare. -/
def Stack.reset : Stack := ⟨0xFF, 0x100, 0, 0, 0, false, [], [], 0, [], [], 8, [], []⟩

/-- The cells of registers whose reset value is not zero: DEV_LOAD_CTRL, MEM_BW_SPLIT, MEM_FILL_TIMEOUT, TIME_CTRL, TIME_STEP_LIMIT, ETH_PTP_CTRL,
PWR_CAP (the envelope of the part), PWR_CAP_PRIO, PWR_MANUAL, PWR_IMAX, PWR_TJ, PWR_TRIP, ERR_UNIT_SEL, and PWR_RAIL_CFG of each rail. DESIGN CHOICE (log 14). -/
def regsReset (p : Part) : Table Word :=
  [(0x080, 0x6400), (0x3400, 0x0134_0134), (0x3430, 0x64), (0x4018, 0x0001_0A00), (0x401C, 0x3E8), (0x5300, 0x00F8_F800),
   (0x7004, BitVec.ofNat 32 (8 * p.envelope + 0x3000)), (0x7008, 0xE), (0x700C, 7), (0x7014, 0x3C0), (0x7018, 0x005F_5F69), (0x701C, 1), (0x8000, 0x500)] ++
  (List.range 7).map (fun n => ((n + 1) * 0x10_0000 + 0x7028, BitVec.ofNat 32 (0xC0 + n)))

/-- The loader at reset. -/
def Loader.reset : Loader :=
  { stage := .idle, busy := false, source := 0, image := [], staged := none, placement := 0, todo := [], copying := false, wanted := none, blob := [],
    uploads := [], fallback := [], reloadReady := false, inputsHeld := false, scrubbed := false, calLow := false, copy := [], origin := 0, map := .identity }

/-- No job. -/
def Job.reset : Job :=
  { state := .noStream, phase := 0, lists := [], invLists := [], doorbell := [], submitted := [], completed := [], dbMark := [], markNo := 0, barriers := [],
    pubCount := [], heldRings := [], holding := false }

/-- The fuses at delivery (R354): slot 0 enrolled at manufacture, slots 1 and 2 empty, nothing burnt. -/
def Otp.delivered : Otp :=
  { slots := #v[#v[⟨1, Sys2Proof.Config.vendorKey 0, Sys2Proof.Config.vendorKey 1⟩, .empty, .empty, .empty], Vector.replicate 4 .empty, Vector.replicate 4 .empty]
    ladder := 0, vendorOff := false, invarOff := false, audit := 0, units := [], sequencers := [], quadrants := [], columns := [], stackRows := [] }

/-- The boot chain while RESET_N is low. -/
def Boot.reset : Boot :=
  { inReset := true, straps := 0, mgmtAddr := 0, fwSlot := 0, failA := 0, failB := 0, recovery := false, slow := false, up := false, release := 0, version := 0,
    measure := [], image := [], isDefault := false, flashSlot := 0 }

/-- The security engine after its `n`-th random draw, with a fresh debug nonce (R358). -/
def Security.reset (n : Nat) : Security :=
  { nonce := (Sys2Proof.Config.random n).take 16 ++ List.replicate (16 - (Sys2Proof.Config.random n).length) 0, token := none, unlocked := false, perms := 0,
    signer := 0, snapshot := none, waiting := false, held := false, heldAt := 0, draws := n + 1, jtag := 0 }

/-- The host port at reset: the identity interleave. -/
def HostPort.reset : HostPort :=
  { chans := Vector.replicate 4 HostChan.idle, resetLow := false, active := .identity, staged := .identity, committed := false, discovery := false, result := 0,
    bit := 0, detail := 0, captures := [], overflow := false, malformed := false, committing := false, deducing := false, out := [] }

/-- The power controller at reset: OP0, no ceiling (R325). -/
def PowerCtl.reset : PowerCtl :=
  { die := 700, step := none, cap := 9, thermal := 9, current := 9, capLow := 0, curLow := 0, brake := false, droop := [], frozen := false, matched := none,
    matchShort := false, reasons := Vector.replicate 7 ⟨false, 0⟩, sensors := [], rates := [], hot := 0 }

/-- The block right after reset, with RESET_N still low. DESIGN CHOICE (log 1); DESIGN CHOICE (log 14); DESIGN CHOICE (log 94). -/
def State.reset : State :=
  { part := ⟨1, false⟩, free := 0, now := 0, regs := regsReset ⟨1, false⟩, job := .reset, loader := .reset, stream := none, placement := 0,
    queues := [], tokens := [], timers := [], chans := [], cached := [], snap := ⟨false, false, false, List.replicate 16 0⟩, cores := Vector.replicate 7 Core.reset,
    mem := [], memBad := [], pages := [], faults := ⟨[], [], none, 0, [], none⟩, window := [], linkErr := [], winErr := [], ee := Vector.replicate 2 Pewter.empty,
    ports := Vector.replicate 8 Port.down, remotes := [], unreachable := [], cams := Vector.replicate 16 Camera.idle, pipes := Vector.replicate 4 Pipeline.idle,
    trigs := [], time := .reset, mclk := Vector.replicate 16 ⟨0, none⟩, ibi := Vector.replicate 8 ⟨0, 0, false, 0⟩, bus := Vector.replicate 8 none, power := ⟨0, 0, 0, 0⟩,
    eth := Vector.replicate 4 EthPort.idle, relayed := [], colls := [], early := [], served := [], memStacks := Vector.replicate 8 Stack.reset, otp := .delivered,
    flash := [], boot := .reset, sec := .reset 0, upload := ⟨[], 0⟩, host := .reset, mgmt := ⟨false, [], 0, none, false, []⟩,
    inv := { Invar.stopped with cal := true }, pwr := .reset, trip := none, health := ⟨0, none, false, none, none, false, []⟩, pending := [] }

/-! ## Outcomes -/

/-- Why the block stops with a fault: it never does. Every row of the table has an effect in every state, so no meaning raises one; a closed type
without constructors says so. Safe: nothing is claimed of a faulted run. -/
inductive Fault where
  deriving DecidableEq, Repr

/-- Why a command has no meaning. -/
inductive Refusal where
  /-- A row that the model does not give a meaning yet; raised by Machine/Dispatch.lean's arms alone. Safe: the run stops. -/
  | notModelled (mnemonic : String)
  deriving DecidableEq, Repr

end Sys2Proof.Machine
end

