-- ==== Sys2Proof/Machine/Regs.lean ====
section
/-! DEFINITION. Machine/Regs.lean: where each register lies in the register page, and the cells behind registers.

A register is named by its byte offset in the register page (block base plus the chapter's offset, R8, R264);
a register that a selector banks has one cell per selected element, at `bank n off`. -/

namespace Sys2Proof.Machine

open Sys2Proof

/-- The cell of a selector-banked register for element `n`. -/
def bank (n off : Nat) : Nat := (n + 1) * 0x10_0000 + off

/-- Block bases of the register page. -/
def blkChn : Nat := 0x1000
def blkHost : Nat := 0x2000
def blkMem : Nat := 0x3000
def blkTime : Nat := 0x4000
def blkEth : Nat := 0x5000
def blkSld : Nat := 0x6000
def blkPwr : Nat := 0x7000
def blkErr : Nat := 0x8000
def blkSec : Nat := 0x9000
def blkInv : Nat := 0xA000
/-- The block of core `n`. -/
def blkTc (n : Nat) : Nat := 0x10000 + 0x1000 * n
/-- The block of Pewter engine `n`. -/
def blkEe (n : Nat) : Nat := 0x16000 + 0x1000 * n
/-- The block of picture pipeline `n`. -/
def blkPp (n : Nat) : Nat := 0x18000 + 0x1000 * n
/-- The block of camera port `n`. -/
def blkCam (n : Nat) : Nat := 0x20000 + 0x1000 * n

/-- The cell of a register. -/
def State.reg (s : State) (k : Nat) : Nat := (look (0 : Word) s.regs k).toNat

/-- The cell of a register set. -/
def State.setReg (s : State) (k v : Nat) : State :=
  { s with regs := put (0 : Word) s.regs k (BitVec.ofNat 32 v) }

/-- A field of a register's cell. -/
def State.regField (s : State) (k lo w : Nat) : Nat := field (s.reg k) lo w

/-- A field of a register's cell set. -/
def State.setRegField (s : State) (k lo w v : Nat) : State := s.setReg k (setField (s.reg k) lo w v)

/-- `n` more events in a counter of 31 bits with SATURATED in bit 31 (R339). DEDUCED (log 29). -/
def bumped (c n : Nat) : Nat :=
  let t := c % 2 ^ 31 + n
  if c.testBit 31 || decide (2 ^ 31 - 1 ≤ t) then 2 ^ 32 - 1 else t

/-- `n` more events in the counter at cell `k` (R339). -/
def State.count (s : State) (k n : Nat) : State :=
  if n = 0 then s else s.setReg k (bumped (s.reg k) n)

/-- The bits of HOST_IRQ_STATUS (R265). -/
inductive Irq where
  | loadDone | loadFailed | cmdIrq | guarantee | fillWanted | weightWanted | thermal | spares | time
  | mcRestart | barrierBroken | hostLink | invar | placement
  deriving DecidableEq, Repr

/-- The bit of HOST_IRQ_STATUS. -/
def Irq.bit : Irq → Nat
  | .loadDone => 0 | .loadFailed => 1 | .cmdIrq => 2 | .guarantee => 3 | .fillWanted => 4
  | .weightWanted => 5 | .thermal => 6 | .spares => 7 | .time => 8 | .mcRestart => 9
  | .barrierBroken => 10 | .hostLink => 11 | .invar => 12 | .placement => 13

/-- HOST_IRQ_STATUS. -/
def rIrq : Nat := blkHost + 0x004

/-- An interrupt cause raised: its bit of HOST_IRQ_STATUS is set, so HOST_IRQ_N is low (R265). -/
def State.irq (s : State) (i : Irq) : State := s.setRegField rIrq i.bit 1 1

/-- DEV_GUARANTEE (R35). -/
def rGuarantee : Nat := 0x040

/-- SENSOR_RATE cleared with a reason, HOST_IRQ_N asserted (R35). Clearing a flag that is already clear changes nothing. -/
def State.clearGuarantee (s : State) (reason : Nat) : State :=
  if s.regField rGuarantee 1 1 = 1 then
    ((s.setRegField rGuarantee 1 1 0).setRegField rGuarantee 4 4 reason).irq .guarantee
  else s

/-- A free value of the spec (a fresh one at each use). DESIGN CHOICE (log 15). -/
def State.fresh (s : State) : Nat × State := (Sys2Proof.Config.free s.free, { s with free := s.free + 1 })

end Sys2Proof.Machine
end

