-- ==== Sys2Proof/Machine/Links.lean ====
section
/-! DEFINITION. Machine/Links.lean: the loaded structure, and packets that leave on Solder ports (R285-R291). -/

namespace Sys2Proof.Machine

open Sys2Proof

/-! ## The structure in effect -/

/-- The device's own number (R38); 0 for a single device. -/
def State.device (s : State) : Nat :=
  match s.stream with
  | some st => if st.deviceNumber = 0xFFFF then 0 else st.deviceNumber
  | none => 0

/-- The placement in effect. -/
def State.place (s : State) : Option Placement := s.stream.bind (fun st => st.placements[s.placement]?)

/-! ## Routes (R289, R291) -/

/-- The dimensions of the loaded stream's shape. -/
def Stream.dims (st : Stream) : List Nat := [st.dimX, st.dimY, st.dimZ]

/-- The coordinates of a device number (R289). -/
def coords (dims : List Nat) (n : Nat) : List Nat :=
  let x := dims.getD 0 1
  let y := dims.getD 1 1
  [n % x, n / x % y, n / (x * y)]

/-- The device number at coordinates. -/
def deviceAt (dims cs : List Nat) : Nat :=
  let x := dims.getD 0 1
  let y := dims.getD 1 1
  cs.getD 0 0 + x * (cs.getD 1 0 + y * cs.getD 2 0)

/-- The neighbour that a port leads to (R289): ports 2d and 2d+1 go up and down dimension d. -/
def portNeighbour (dims : List Nat) (own port : Nat) : Nat :=
  let d := port / 2
  let m := dims.getD d 1
  let c := (coords dims own).getD d 0
  let c' := if port % 2 = 0 then (c + 1) % m else (c + (m - 1)) % m
  deviceAt dims ((coords dims own).set d c')

/-- A step of a route: the port, whether it crosses the wrap link, whether it turns into another dimension. -/
structure Hop where
  port : Nat
  wraps : Bool
  turns : Bool
  deriving DecidableEq, Repr

/-- The first dimension in which two coordinate lists differ. -/
def firstDiff : Nat → List Nat → List Nat → Option Nat
  | d, a :: as, b :: bs => if a = b then firstDiff (d + 1) as bs else some d
  | _, _, _ => none

/-- The next hop towards a device (R291): dimension order, the short way round, + when both are equal, the other way when
that port is down; a packet already travelling along the dimension keeps its direction. -/
def nextHop (dims : List Nat) (up : Nat → Bool) (own target : Nat) (arrived : Option Nat) : Option Hop :=
  match firstDiff 0 (coords dims own) (coords dims target) with
  | none => none
  | some d =>
    let m := dims.getD d 1
    let o := (coords dims own).getD d 0
    let t := (coords dims target).getD d 0
    let plus := match arrived with
      | some p => if p / 2 = d then p % 2 == 1 else decide (2 * ((t + m - o) % m) ≤ m)
      | none => decide (2 * ((t + m - o) % m) ≤ m)
    let turns := match arrived with | some p => p / 2 != d | none => true
    let hop (plus : Bool) : Hop :=
      ⟨2 * d + (if plus then 0 else 1), if plus then o + 1 == m else o == 0, turns⟩
    if up (hop plus).port then some (hop plus)
    else if up (hop !plus).port then some (hop !plus)
    else none

/-- A working lane carries traffic. -/
def Port.up (p : Port) : Bool := p.inUse != 0

/-- A Solder port by number; ports above 7 do not exist. -/
def State.port (s : State) (n : Nat) : Port := s.ports.getD n Port.down

/-- A Solder port changed. -/
def State.onPort (s : State) (n : Nat) (f : Port → Port) : State :=
  if h : n < 8 then { s with ports := s.ports.set n (f s.ports[n]) } else s

/-- A packet sent with the next sequence number, kept in the replay buffer until it is acknowledged; the rotation moves past its virtual lane (R286, R287). -/
def Port.transmit (p : Port) (k : Packet) : Port :=
  { p with tx := p.tx ++ [{ k with seq := p.txSeq }], txSeq := (p.txSeq + 1) % 256, rot := if 2 ≤ k.vl then (k.vl - 1) % 4 else p.rot }

/-- A packet handed to a port: sent with the next sequence number while the 128-packet replay buffer has room and the port
does not retrain, held back otherwise (R287). -/
def Port.push (p : Port) (k : Packet) : Port :=
  if p.retraining || decide (128 ≤ p.tx.length) || !p.waiting.isEmpty then { p with waiting := p.waiting ++ [k] } else p.transmit k

/-- The waiting packet that a port sends next (R286): VL0 before VL1, VL1 before the others, and VL2 to VL5 in rotation. -/
def Port.pick (p : Port) : Option Packet :=
  ([0, 1] ++ (List.range 4).map (fun i => 2 + (p.rot + i) % 4)).findSome? (fun v => p.waiting.find? (fun k => k.vl == v))

/-- Waiting packets sent while the replay buffer has room. -/
def Port.flush : Nat → Port → Port
  | 0, p => p
  | n + 1, p =>
    match p.pick with
    | none => p
    | some k => if p.retraining || decide (128 ≤ p.tx.length) then p else Port.flush n ({ p with waiting := p.waiting.erase k }.transmit k)

def rSldOrphan : Nat := blkSld + 0x040
def rSldShedDrop : Nat := blkSld + 0x044
def rSldCollBad : Nat := blkSld + 0x048
def rSldCollSat : Nat := blkSld + 0x04C
def rSldUnreachable : Nat := blkSld + 0x050
def rSldPeerWait : Nat := blkSld + 0x054

/-- The virtual lane of a packet's next hop (R286, R291). -/
def hopVl (kind vl : Nat) (h : Hop) : Nat :=
  if kind = 1 ∨ kind = 3 ∨ kind = 6 then (if h.wraps then 3 else if h.turns then 2 else vl)
  else if kind = 9 ∨ kind = 10 then 0 else if kind = 7 then 4 else if kind = 8 then 5 else 1

/-- The next hop of the loaded shape towards a device. -/
def State.hopTo (s : State) (target : Nat) (arrived : Option Nat) : Option Hop :=
  match s.stream with
  | some st => nextHop st.dims (fun n => (s.port n).up) s.device target arrived
  | none => none

/-- The next hop to a device across one link (R142, R292): a port that joins it directly, none where no such port is up. -/
def State.directHop (s : State) (target : Nat) : Option Hop :=
  match s.stream with
  | some st => nextHop st.dims (fun n => (s.port n).up && portNeighbour st.dims s.device n == target) s.device target none
  | none => none

/-- A packet sent towards its destination device; a memory access crosses one link and takes no other way (R142, R292); an unreachable one is kept, the channel of a token or
a credit STALLED and counted once, and SPARES is raised (R291). Packets without a route stay in `waiting` of the port of the short way. -/
def State.sendPacket (s : State) (k : Packet) (arrived : Option Nat) : State :=
  match (if k.kind = 7 ∨ k.kind = 8 then s.directHop k.dest else s.hopTo k.dest arrived) with
  | some h => s.onPort h.port (fun p => p.push { k with vl := hopVl k.kind k.vl h })
  | none =>
    let s1 := if look false s.unreachable k.channel then s
      else if k.kind ≠ 1 ∧ k.kind ≠ 2 then s.irq .spares
      else (({ s with
        unreachable := put false s.unreachable k.channel true
        chans := s.chans.modify k.channel (fun c => { c with ent := { c.ent with state := 2 } }) }).count rSldUnreachable 1).irq .spares
    match s.stream with
    | some st =>
      match nextHop st.dims (fun _ => true) s.device k.dest none with
      | some h => s1.onPort h.port (fun p => { p with waiting := p.waiting ++ [{ k with vl := hopVl k.kind k.vl h }] })
      | none => s1
    | none => s1

/-- The MARKS byte of a token's packets, without FIRST and LAST. -/
def Marks.byte (m : Marks) : Nat :=
  b2n m.frameStart + 2 * b2n m.frameEnd + 4 * b2n m.pad + 8 * b2n m.flagged + 16 * b2n m.poisoned + 32 * b2n m.shedGap

/-- The marks of a MARKS byte. -/
def Marks.ofByte (b : Nat) : Marks :=
  ⟨b.testBit 0, b.testBit 1, b.testBit 2, b.testBit 3, b.testBit 4, b.testBit 5⟩

/-- The 16-byte token prefix of a FIRST packet. -/
def Token.header (t : Token) : List Byte := leBytes 4 t.frame ++ leBytes 2 t.epoch ++ leBytes 2 0 ++ leBytes 8 t.ts

/-- Bytes cut into packet payloads of at most 256. -/
def chunks : Nat → List Byte → List (List Byte)
  | 0, _ => []
  | n + 1, bs => if bs.length ≤ 256 then [bs] else bs.take 256 :: chunks n (bs.drop 256)

/-- The packets of a token. -/
def Token.packets (t : Token) (kind dest src channel : Nat) : List Packet :=
  let ps := chunks (t.data.length + 1) (t.header ++ t.data)
  ps.mapIdx (fun n p =>
    { kind := kind, vl := 2, marks := t.marks.byte + (if n = 0 then 64 else 0) + (if n + 1 = ps.length then 128 else 0),
      dest := dest, src := src, channel := channel, len := p.length, seq := 0, payload := p })

end Sys2Proof.Machine
end

