-- ==== Sys2Proof/Machine/Ops.lean ====
section
/-! DEFINITION. Machine/Ops.lean: the named operations shared by the meanings: units and queues,
claims and scratchpad accesses, channels, tokens and credits, readiness, start and completion of commands. -/

namespace Sys2Proof.Machine

open Sys2Proof

/-! ## Units and queues (R58) -/

/-- A number for each unit. -/
def unitIdx : UnitId → Nat
  | .tc n => n
  | .ee n => 6 + n
  | .front n => 8 + n
  | .back n => 12 + n
  | .sp n => 16 + n
  | .eth n => 24 + n
  | .sctl n => 28 + n
  | .time => 36
  | .invar => 37

/-- The endpoint class of a unit. -/
def unitClass : UnitId → Nat
  | .tc _ => 0x05 | .ee _ => 0x04 | .front _ => 0x02 | .back _ => 0x03 | .sp _ => 0x08
  | .eth _ => 0x09 | .sctl _ => 0x0B | .time => 0x0C | .invar => 0x0A

/-- The index of a unit within its class. -/
def unitIndex : UnitId → Nat
  | .tc n => n | .ee n => n | .front n => n | .back n => n | .sp n => n | .eth n => n
  | .sctl n => n | .time => 0 | .invar => 0

/-- Bits [21:8] of a unit's endpoint identifier. -/
def unitField (u : UnitId) : Nat := unitClass u * 256 + unitIndex u

/-- The unit that bits [21:8] of an endpoint name. -/
def unitOfField (f : Nat) : Option UnitId :=
  let c := f / 256
  let i := f % 256
  match c with
  | 0x05 => if h : i < 6 then some (.tc ⟨i, h⟩) else none
  | 0x04 => if h : i < 2 then some (.ee ⟨i, h⟩) else none
  | 0x02 => if h : i < 4 then some (.front ⟨i, h⟩) else none
  | 0x03 => if h : i < 4 then some (.back ⟨i, h⟩) else none
  | 0x08 => if h : i < 8 then some (.sp ⟨i, h⟩) else none
  | 0x09 => if h : i < 4 then some (.eth ⟨i, h⟩) else none
  | 0x0B => if h : i < 8 then some (.sctl ⟨i, h⟩) else none
  | 0x0C => if i = 0 then some .time else none
  | 0x0A => if i = 0 then some .invar else none
  | _ => none

/-- The queue numbers of a unit (R58, R305). -/
def unitPorts : UnitId → List Nat
  | .tc _ => [0, 1, 2, 3, 4]
  | .ee _ => [0, 1, 3]
  | .invar => [0, 1, 2, 3]
  | _ => [0]

/-- The key of a queue. -/
def queueKey (q : QueueId) : Nat := unitIdx q.unit * 8 + q.port

/-- The endpoint identifier of a queue on device `dev`. -/
def queueEndpoint (dev : Nat) (q : QueueId) : Nat := dev * 2 ^ 22 + unitField q.unit * 256 + q.port

/-- The scratchpad a unit's commands work in: its own, or Invar's sealed SRAM (R306). -/
def coreOf : UnitId → Fin 7
  | .tc n => ⟨n, by omega⟩
  | _ => ⟨6, by omega⟩

/-- The register block of a core; the sealed SRAM has no counters there and uses cells of its own. -/
def coreBlk (c : Fin 7) : Nat := if c.val < 6 then blkTc c else bank 0x200 blkInv

/-- The queue record of a queue. -/
def State.queue (s : State) (q : QueueId) : QState := look QState.start s.queues (queueKey q)

/-- The queue record set. -/
def State.setQueue (s : State) (q : QueueId) (v : QState) : State :=
  { s with queues := put QState.start s.queues (queueKey q) v }

/-- The queue record changed. -/
def State.onQueue (s : State) (q : QueueId) (f : QState → QState) : State := s.setQueue q (f (s.queue q))

/-- A token counter (R59). -/
def State.token (s : State) (u : UnitId) (c : Nat) : Nat := (look (0 : Half) s.tokens (unitIdx u * 64 + c)).toNat

/-- One more in a token counter, modulo 2^16 (R64). -/
def State.signal (s : State) (u : UnitId) (c : Nat) : State :=
  { s with tokens := tweak (0 : Half) s.tokens (unitIdx u * 64 + c) (· + 1) }

/-- A doorbell counter (R59). -/
def State.doorbell (s : State) (n : Nat) : Nat := look 0 s.job.doorbell n

/-! ## The structure in effect -/

/-- The physical core of a logical core under a placement. -/
def Placement.core (p : Placement) (l : Nat) : Nat := p.coreMap.getD l 0xFF

/-- The partitions of a physical core under the placement in effect. -/
def State.partitions (s : State) (c : Fin 7) : List Partition :=
  match s.stream, s.place with
  | some st, some p => st.partitions.filter (fun x => p.core x.core == c.val)
  | _, _ => []

/-- The partition of a core that holds a line. -/
def State.partOf (s : State) (c : Fin 7) (line : Nat) : Option Partition :=
  (s.partitions c).find? (fun x => decide (x.base ≤ line * 64) && decide (line * 64 < x.base + x.size))

/-- Whether a line lies in a partition of the given kind; the sealed SRAM has no partitions (R305). -/
def State.inKind (s : State) (c : Fin 7) (kind line : Nat) : Bool :=
  if c.val = 6 then decide (line < 131072)
  else match s.partOf c line with
    | some x => x.kind == kind
    | none => false

/-- Whether a line lies in some partition. -/
def State.inPart (s : State) (c : Fin 7) (line : Nat) : Bool :=
  if c.val = 6 then decide (line < 131072) else (s.partOf c line).isSome

/-- Whether the loaded stream claims a resource (R42). -/
def State.claimed (s : State) (kind index : Nat) : Bool :=
  match s.stream with
  | some st => st.claims.any (fun c => c.kind == kind && c.index == index) ||
      (match st.legal with
       | some l => l.claims.any (fun c => c.kind == kind && c.index == index)
       | none => false)
  | none => false

/-- The claim of a resource. -/
def State.claimOf (s : State) (kind index : Nat) : Option ClaimRec :=
  s.stream.bind (fun st => (st.claims ++ (match st.legal with | some l => l.claims | none => [])).find?
    (fun c => c.kind == kind && c.index == index))

/-- Whether TOPOLOGY names a device as the neighbour on a Solder port. -/
def State.directLink (s : State) (dev : Nat) : Bool :=
  match s.stream with
  | some st => st.units.any (fun u => u.role == 0x50 && u.param == dev)
  | none => false

/-- The power domains of a unit (chapter 2, *Power domain numbers*). -/
def unitDomains : UnitId → List Nat
  | .tc n => (List.range 10).map (10 * n.val + ·)
  | .ee n => [80 + n]
  | .front n => [60 + n]
  | .back n => [60 + n]
  | .sp n => [90 + n / 4]
  | .eth n => [90 + n / 2]
  | .sctl _ => [95]
  | .time => [94]
  | .invar => [92]

/-- Whether one of a unit's domains is switching on (R323). -/
def State.switchingOn (s : State) (u : UnitId) : Bool :=
  (unitDomains u).any (fun d => s.power.switching.getLsbD d)

/-! ## Scratchpad lines (chapter 6) -/

/-- The core record changed. -/
def State.onCore (s : State) (c : Fin 7) (f : Core → Core) : State :=
  { s with cores := s.cores.set c (f s.cores[c]) }

/-- A line of a core. -/
def Core.line (c : Core) (l : Nat) : Line := look Line.zero c.lines l

/-- Lines of a core or of the sealed SRAM (R112, R305). -/
def lineCount (c : Fin 7) : Nat := if c.val = 6 then 131072 else 786432

/-- The bank group of a line (R112). -/
def groupOf (line : Nat) : Nat := line / 196608

/-- The bank of a line within its group (R115). -/
def bankOf (line : Nat) : Nat :=
  let l := line % 196608
  let h := field l 8 4 ^^^ field l 12 4 ^^^ field l 16 2
  (field l 0 4 + field l 4 4 + h) % 16

/-- The device bank index of a line, `16 g + b` (R115). -/
def bankIndex (line : Nat) : Nat := 16 * groupOf line + bankOf line

/-- All 64 bytes of a line. -/
def fullMask : Nat := 2 ^ 64 - 1

/-- The bits of the bytes that a byte mask enables. -/
def spread : Nat → Nat → Nat
  | 0, _ => 0
  | n + 1, m => (if m.testBit 0 then 0xFF else 0) + 256 * spread n (m / 2)

/-- Bytes of `new` where the mask enables them, of `old` elsewhere. -/
def mergeBytes (old new : LineBits) (mask : Nat) : LineBits :=
  if mask = fullMask then new
  else
    let m := BitVec.ofNat 512 (spread 64 mask)
    (old &&& ~~~m) ||| (new &&& m)

/-- A write of one line: its data and byte mask, the tag a whole-line write sets (R99), its marks. -/
structure LineWrite where
  line : Nat
  mask : Nat
  data : LineBits
  tag : Option Nat
  poison : Bool
  flagged : Bool
  collided : Bool
  src : Nat := 0

/-- A claim of the writer itself on a line. -/
def Core.ownClaim (c : Core) (h : Option Holder) (line : Nat) : Option Claim :=
  c.claims.find? (fun x => x.line == line && some x.holder == h)

/-- Whether a claim is of the writer's own requester: its command, or an earlier one of its queue that writes as the same requester of R117 does; the
accesses of one requester keep their order (R120, R78). DEDUCED (log 17). -/
def Claim.kin (x : Claim) (h : Option Holder) (src : Nat) : Bool :=
  some x.holder == h || (some x.holder.queue == h.map (·.queue) && x.src == src)

/-- The claim of another requester that holds a line. DEDUCED (log 17); DESIGN CHOICE (log 19). -/
def Core.rival (c : Core) (h : Option Holder) (src line : Nat) : Option Claim :=
  c.claims.find? (fun x => x.line == line && x.holds && !x.kin h src)

/-- What a write leaves of a claim: the writer's own claim of the line is replaced, an older one of its requester holds no more, a rival that
is beaten holds no more and loses the bytes of the overlap, one that is not keeps the line; both have collided. DEDUCED (log 18). -/
def Claim.after (x : Claim) (h : Option Holder) (src line : Nat) (rival beats : Bool) (overlap : Nat) : Option Claim :=
  if x.line == line && some x.holder == h then none
  else if x.line == line && x.kin h src then some { x with holds := false }
  else if x.line == line && x.holds && rival && beats then some { x with holds := false, collided := true, lost := x.lost ||| overlap }
  else if x.line == line && x.holds && rival then some { x with collided := true }
  else some x

/-- Whether a claim of a line takes it from its holder (R122): an engine write from a DMA write; nobody holds it otherwise. -/
def beatsHolder (engine : Bool) : Option Claim → Bool
  | some o => engine && !o.engine
  | none => true

/-- The bytes that a claim of `mask` shares with the holder's. -/
def overlapWith (mask : Nat) : Option Claim → Nat
  | some o => mask &&& o.mask
  | none => 0

/-- Lines claimed before their data is there (R121): a collision sets COLLIDED and decides byte by byte as a write does (R122). Answers the core and the
number of lines that newly collided. DEDUCED (log 18). -/
def Core.claimLine (c : Core) (h : Holder) (engine : Bool) (src line mask : Nat) : Core × Nat :=
  match c.ownClaim (some h) line with
  | some _ => ({ c with claims := c.claims.map (fun x => if x.line == line && x.holder == h then { x with mask := x.mask ||| mask } else x) }, 0)
  | none =>
    let old := c.line line
    let other := c.rival (some h) src line
    let beats := beatsHolder engine other
    let overlap := overlapWith mask other
    let tag := match other with | some o => if beats && overlap ≠ 0 then o.old.tag else old.tag | none => old.tag
    let others := c.claims.filterMap (fun x => x.after (some h) src line other.isSome beats overlap)
    ({ c with
        lines := if other.isSome then put Line.zero c.lines line { old with collided := true, tag := tag } else c.lines
        claims := ⟨h, line, mask, 0, engine, src, beats, if beats then 0 else overlap, other.isSome, old, false, false⟩ :: others },
      if other.isSome then 1 else 0)

/-- A write applied to a core under the claim rules (R121, R122): bytes lost to the holder are discarded,
an engine write wins over a DMA write and the first claim wins otherwise, a collision sets COLLIDED, and the
tag follows a whole-line write that keeps all its bytes (R99). The writes of one requester keep their order
and do not collide with each other (R120, R78). Answers the core and the number of lines on which
this write newly collided. `h = none` is a write that is visible at once and keeps no claim. DEDUCED (log 18); DESIGN CHOICE (log 19). -/
def Core.write (c : Core) (h : Option Holder) (engine : Bool) (w : LineWrite) : Core × Nat :=
  let old := c.line w.line
  let own := c.ownClaim h w.line
  let other := c.rival h w.src w.line
  let beats := beatsHolder engine other
  let overlap := overlapWith w.mask other
  let ownLost := match own with | some o => o.lost | none => 0
  let lost := (if beats then 0 else overlap) ||| (w.mask &&& ownLost)
  let hit := other.isSome || (match own with | some o => o.collided | none => false)
  let newHit := other.isSome && !(match own with | some o => o.collided | none => false)
  let lostAny := decide (lost ≠ 0) || decide (ownLost ≠ 0)
  let all := decide (w.mask = fullMask)
  let fresh := match own with | some o => all || decide (o.got = fullMask) | none => true
  let got := if all then fullMask else w.mask ||| (match own with | some o => if fresh then 0 else o.got | none => 0)
  let mask := w.mask ||| (match own with | some o => o.mask | none => 0)
  let poison := w.poison || (!fresh && (match own with | some o => o.poison | none => false))
  let flagged := w.flagged || (!fresh && (match own with | some o => o.flagged | none => false))
  let whole := decide (got = fullMask) && !lostAny
  -- a holder that loses bytes counts as a write of part of the line: the tag it set goes back
  let tag0 := match other with
    | some o => if beats && overlap ≠ 0 then o.old.tag else old.tag
    | none => old.tag
  let tag := if whole then (match w.tag with | some t => BitVec.ofNat 4 t | none => tag0) else tag0
  let line : Line :=
    { bits := mergeBytes old.bits w.data (w.mask &&& (fullMask ^^^ lost))
      tag := tag
      poison := if whole then poison else old.poison || w.poison
      collided := if hit then true else if whole then w.collided else old.collided || w.collided
      flagged := if whole then flagged else old.flagged || w.flagged
      upset := if whole then 0 else old.upset
      errs := if whole then 0 else old.errs }
  let others := c.claims.filterMap (fun x => x.after h w.src w.line other.isSome beats overlap)
  let claims := match h with
    | none => others
    | some hd =>
      ⟨hd, w.line, mask, got, engine, w.src, beats && (match own with | some o => o.holds | none => true), ownLost ||| lost, hit,
        (match own with | some o => o.old | none => old), poison, flagged⟩ :: others
  ({ c with lines := put Line.zero c.lines w.line line, claims := claims }, if newHit then 1 else 0)

/-- Whether a read by a queue meets the pending mark of a claim (R121): bytes of it have not come, or another requester's whole-destination claim has not
ended; a requester's read of a line that it is itself writing returns that write's data (R120). DEDUCED (log 17). -/
def Claim.pends (x : Claim) (q : QueueId) : Bool := (x.got &&& x.mask) != x.mask || (x.holder.queue != q && (x.engine || x.src != 0))

/-- The lines whose pending marks make a read by a queue wait (R121). -/
def Core.pendingLines (c : Core) (q : QueueId) : List Nat := (c.claims.filter (·.pends q)).map (·.line)

/-- Several writes, and how many lines newly collided. DESIGN CHOICE (log 20). -/
def Core.writes (c : Core) (h : Option Holder) (engine : Bool) : List LineWrite → Core × Nat
  | [] => (c, 0)
  | w :: ws =>
    let (c1, n) := c.write h engine w
    let (c2, m) := c1.writes h engine ws
    (c2, n + m)

/-- Writes applied to core `c` of the block; WRITE_COLLISION counts once per colliding line (R122). DESIGN CHOICE (log 20). -/
def State.writeLines (s : State) (c : Fin 7) (h : Option Holder) (engine : Bool) (ws : List LineWrite) : State :=
  let r := s.cores[c].writes h engine ws
  ({ s with cores := s.cores.set c r.1 }).count (coreBlk c + 0x318) r.2

/-- A transfer's claim of a line before its data has come (R121); WRITE_COLLISION counts (R122). -/
def State.claimLine (s : State) (c : Fin 7) (h : Holder) (line mask : Nat) : State :=
  let r := s.cores[c].claimLine h false 0 line mask
  ({ s with cores := s.cores.set c r.1 }).count (coreBlk c + 0x318) r.2

/-- A line after a read has met its upsets (R129): single wrong bits are corrected and written back, unless a write has claimed the line; a line with an
uncorrectable error is POISONED. DESIGN CHOICE (log 106). -/
def Line.seen (x : Line) (claimed : Bool) : Line :=
  { x with upset := if claimed then x.upset else x.uncorrected, poison := x.poison || decide (0 < x.ues), errs := min 2 (x.errs + x.ces) }

/-- Reads of lines observe stored upsets (R129): words with a single wrong bit are corrected and count SP_CE;
uncorrectable ones count SP_UE. DESIGN CHOICE (log 106). -/
def State.touchLines (s : State) (c : Fin 7) : List Nat → State
  | [] => s
  | l :: ls =>
    let x := s.cores[c].line l
    let s1 :=
      if x.upset = 0 then s
      else
        ((s.onCore c (fun k => { k with lines := put Line.zero k.lines l (x.seen (k.claims.any (fun y => y.line == l))) })).count
          (if c.val = 6 then blkInv + 0x05C else coreBlk c + 0x310) x.ces).count (coreBlk c + 0x314) x.ues
    s1.touchLines c ls

/-- Whether a line is to be repaired (R130): it has met an uncorrectable error, or a second correctable one. -/
def Line.worn (x : Line) : Bool := (x.poison && decide (0 < x.ues)) || decide (2 ≤ x.errs)

/-- Whether a read of a line meets POISON (R129). -/
def Core.poisoned (c : Core) (l : Nat) : Bool := (c.line l).poison || decide (0 < (c.line l).ues)

/-- Whether a read of a line makes what is produced from it FLAGGED (R19, R123). -/
def Core.flags (c : Core) (l : Nat) : Bool := (c.line l).flagged || (c.line l).collided

/-- The marks of a set of lines: POISONED and FLAGGED. -/
def Core.marks (c : Core) (ls : List Nat) : Bool × Bool := (ls.any c.poisoned, ls.any c.flags)

/-- `w` bits at bit `bit` of the bit string that starts at a line (chapter 4, *Operand addressing*). -/
def Core.bitsAt (c : Core) (base bit w : Nat) : Nat :=
  let l := base + bit / 512
  let o := bit % 512
  let lo := (c.line l).bits.toNat >>> o
  let x := if o + w ≤ 512 then lo else lo + ((c.line (l + 1)).bits.toNat <<< (512 - o))
  x % 2 ^ w

/-- `n` bytes from byte `off` of a core on. -/
def Core.bytes (c : Core) (off n : Nat) : List Byte :=
  (List.range n).map (fun i => BitVec.ofNat 8 (c.bitsAt 0 (8 * (off + i)) 8))

/-- The lines that `n` bits from a line's start touch. -/
def linesOf (base n : Nat) : List Nat := (List.range (ceilDiv n 512)).map (base + ·)

/-- A line's repair in the array (R130): a correctable upset is gone, an uncorrectable line keeps POISON, and the line stands in the next spare row
of its bank. -/
def Core.moveLine (c : Core) (line : Nat) : Core :=
  let x := c.line line
  let n := look 0 c.spareUsed (bankIndex line) + 1
  { c with
    lines := put Line.zero c.lines line { x with poison := c.poisoned line, upset := 0, errs := 0 }
    spareUsed := put 0 c.spareUsed (bankIndex line) n, spareMap := put 0 c.spareMap line n }

/-- Repairs that waited for a claim done on the lines that no write claims any more (R130). -/
def Core.repairFree (c : Core) : Core :=
  let ready := c.repairs.filter (fun l => !c.claims.any (fun x => x.line == l))
  let c := ready.foldl (fun c l => if look 0 c.spareUsed (bankIndex l) < 24 then c.moveLine l else c) c
  { c with repairs := c.repairs.filter (fun l => !ready.contains l) }

/-- The claims of a command released; losers and other claims stay. Repairs that waited for them are done (R130). -/
def State.release (s : State) (h : Holder) : State :=
  { s with cores := s.cores.map (fun c =>
      let c := { c with claims := c.claims.filter (fun x => x.holder != h) }
      if c.repairs.isEmpty then c else c.repairFree) }

/-- The claims of a command released on lines whose claimed bytes have all come (R135, R121). -/
def State.releaseCame (s : State) (h : Holder) : State :=
  { s with cores := s.cores.map (fun c =>
      let c := { c with claims := c.claims.filter (fun x => x.holder != h || (x.got &&& x.mask) != x.mask) }
      if c.repairs.isEmpty then c else c.repairFree) }

/-- A line as it was before a claim, in the bytes that the claim's write has kept (R132). -/
def Core.restore (c : Core) (x : Claim) : Core :=
  let l := c.line x.line
  { c with lines := put Line.zero c.lines x.line { l with
      bits := mergeBytes l.bits x.old.bits (x.got &&& (fullMask ^^^ x.lost)), tag := x.old.tag, poison := x.old.poison, flagged := x.old.flagged } }

/-- Lines that a cut command has written in part get their previous contents back (R132). -/
def State.undo (s : State) (k : Fin 7) (h : Holder) (part : Nat → Bool) : State :=
  s.onCore k (fun c => (c.claims.filter (fun x => x.holder == h && part x.line)).foldl Core.restore c)

/-- A write of `bs` at byte `off` of a line. -/
def byteWrite (line off : Nat) (bs : List Byte) (poison flagged : Bool) : LineWrite :=
  { line := line
    mask := (2 ^ bs.length - 1) <<< off
    data := BitVec.ofNat 512 (leNat bs <<< (8 * off))
    tag := none, poison := poison, flagged := flagged, collided := false }

/-- A bit string of `n` bits as whole-line writes from `base` on, zero to the end of the last line (R378). -/
def rowWrites (base n x : Nat) (poison flagged : Bool) : List LineWrite :=
  (List.range (ceilDiv n 512)).map (fun i =>
    { line := base + i, mask := fullMask, data := BitVec.ofNat 512 (x >>> (512 * i)),
      tag := none, poison := poison, flagged := flagged, collided := false })

/-! ## Little-endian fields, stack memory and the window SRAM -/

/-- Little-endian fields of 1, 2, 3, 4 and 8 bytes. -/
def u8 (bs : List Byte) (o : Nat) : Nat := leAt bs o 1
def u16 (bs : List Byte) (o : Nat) : Nat := leAt bs o 2
def u24 (bs : List Byte) (o : Nat) : Nat := leAt bs o 3
def u32 (bs : List Byte) (o : Nat) : Nat := leAt bs o 4
def u64 (bs : List Byte) (o : Nat) : Nat := leAt bs o 8

/-- `n` bytes of stack memory from a physical address on. DESIGN CHOICE (log 11). -/
def State.memBytes (s : State) (a n : Nat) : List Byte := lookAll (0 : Byte) s.mem a n

/-- Bytes written to stack memory; a write that covers a whole 64-byte line makes it good again. -/
def State.memWrite (s : State) (a : Nat) (bs : List Byte) : State :=
  let lo := ceilDiv a 64
  let hi := (a + bs.length) / 64
  { s with mem := putAll (0 : Byte) s.mem a bs, memBad := wipe s.memBad lo hi }

/-- A range of stack memory zeroed. -/
def State.memZero (s : State) (a n : Nat) : State :=
  { s with mem := wipe s.mem a (a + n), memBad := wipe s.memBad (a / 64) (ceilDiv (a + n) 64) }

/-- Whether a range of stack memory meets an uncorrectable line (R280). -/
def State.memPoisoned (s : State) (a n : Nat) : Bool :=
  (lookAll false s.memBad (a / 64) (ceilDiv (a % 64 + n) 64)).any id

/-- The physical address of a device-space address (chapter 2, MEMORY; STACK_MAP of the placement). -/
def State.physical (s : State) (dev : Nat) : Nat :=
  let l := dev / 2 ^ 33
  let p := match s.place with
    | some p => p.stackMap.getD l l
    | none => l
  p * 2 ^ 33 + dev % 2 ^ 33

/-- `n` bytes of the window SRAM. DESIGN CHOICE (log 11). -/
def State.winBytes (s : State) (a n : Nat) : List Byte := lookAll (0 : Byte) s.window a n

/-- A device write to the window SRAM (R255, R256); a 64-bit word that it covers whole has its check bits written anew (R257). -/
def State.winWrite (s : State) (a : Nat) (bs : List Byte) : State :=
  { s with window := putAll (0 : Byte) s.window a bs, winErr := wipe s.winErr (ceilDiv a 8) ((a + bs.length) / 8) }

/-- Words of a range of the window SRAM with a given kind of upset: 1 a single wrong bit, 2 more (R257). -/
def State.winUpsets (s : State) (kind a n : Nat) : Nat := ((lookAll 0 s.winErr (a / 8) (ceilDiv (a % 8 + n) 8)).filter (· == kind)).length

/-- Uncorrectable words of a range. -/
def State.winUes (s : State) (a n : Nat) : Nat := s.winUpsets 2 a n

/-- Corrected errors of a range that is read: HOST_WIN_CE (R257). -/
def State.winCes (s : State) (a n : Nat) : State := s.count (blkHost + 0x030) (s.winUpsets 1 a n)

/-! ## Channels, tokens and credits (chapter 1) -/

/-- The CRC-32C remainder after one byte, eight shifts of the reflected polynomial (R32). -/
def crcBits : Nat → Nat → Nat
  | 0, c => c
  | n + 1, c => crcBits n (if c.testBit 0 then (c / 2) ^^^ 0x82F6_3B78 else c / 2)

/-- The running CRC-32C after a list of bytes. PRESUMED (log 7). -/
def crc32c (c : Nat) (bs : List Byte) : Nat := bs.foldl (fun c b => crcBits 8 (c ^^^ b.toNat)) c

/-- An unused entry (KIND 0x00). -/
def Entry.unused : Entry :=
  { kind := 0, state := 0, shed := false, pinned := false, sensorRate := false, timeDerived := false,
    shedDepth := 0, creditDepth := 0, source := 0, dest := 0, elemFormat := 0, layout := 0, width := 0,
    height := 0, depth := 0, tokenRows := 0, tokenBytes := 0, padValue := 0, multicast := false,
    frameNumber := 0, epoch := 0, droppedSat := false, flaggedSat := false, poisonedSat := false,
    dropped := 0, flagged := 0, poisoned := 0, digest := 0, lastTs := 0 }

/-- A channel table entry read from its 64 bytes (R22). -/
def entryOf (e : List Byte) : Entry :=
  let w := u32 e 0
  let f := u32 e 0x1C
  let g := u32 e 0x24
  { kind := w % 256, state := field w 8 4, shed := w.testBit 12, pinned := w.testBit 13, sensorRate := w.testBit 14,
    timeDerived := w.testBit 15, shedDepth := field w 16 8, creditDepth := field w 24 8, source := u32 e 4, dest := u32 e 8,
    elemFormat := u8 e 0x0C, layout := u8 e 0x0D, width := u16 e 0x10, height := u16 e 0x12, depth := u16 e 0x14, tokenRows := u16 e 0x16,
    tokenBytes := u32 e 0x18, padValue := f % 2 ^ 24, multicast := f.testBit 24, frameNumber := u32 e 0x20, epoch := g % 2 ^ 16,
    droppedSat := g.testBit 16, flaggedSat := g.testBit 17, poisonedSat := g.testBit 18, dropped := u32 e 0x28, flagged := u32 e 0x2C,
    poisoned := u32 e 0x30, digest := u32 e 0x34, lastTs := u64 e 0x38 }

/-- The 64 bytes of a channel table entry (R22). -/
def Entry.bytes (e : Entry) : List Byte :=
  leBytes 4 (e.kind + 256 * e.state + 2 ^ 12 * b2n e.shed + 2 ^ 13 * b2n e.pinned + 2 ^ 14 * b2n e.sensorRate + 2 ^ 15 * b2n e.timeDerived +
    2 ^ 16 * e.shedDepth + 2 ^ 24 * e.creditDepth) ++
  leBytes 4 e.source ++ leBytes 4 e.dest ++ leBytes 1 e.elemFormat ++ leBytes 1 e.layout ++ leBytes 2 0 ++ leBytes 2 e.width ++ leBytes 2 e.height ++
  leBytes 2 e.depth ++ leBytes 2 e.tokenRows ++ leBytes 4 e.tokenBytes ++ leBytes 4 (e.padValue + 2 ^ 24 * b2n e.multicast) ++
  leBytes 4 e.frameNumber ++ leBytes 4 (e.epoch + 2 ^ 16 * b2n e.droppedSat + 2 ^ 17 * b2n e.flaggedSat + 2 ^ 18 * b2n e.poisonedSat) ++
  leBytes 4 e.dropped ++ leBytes 4 e.flagged ++ leBytes 4 e.poisoned ++ leBytes 4 e.digest ++ leBytes 8 e.lastTs

/-- A pass that has never completed. -/
def PassInfo.none : PassInfo := ⟨0, 0, 0, 0, 0, 0⟩

/-- Whether a unit at an end of the channel is unused under the placement (R46): its INDEX is 0xFF. -/
def Entry.unplaced (e : Entry) : Bool := field e.source 8 8 == 0xFF || (!e.multicast && field e.dest 8 8 == 0xFF)

/-- The credits that a sender holds at first: CREDIT_DEPTH (R17); none on a channel of an unused unit, which stays IDLE (R46). -/
def Entry.firstCredits (e : Entry) : Nat := if e.unplaced then 0 else e.creditDepth

/-- A channel as a load leaves it: the sender holds CREDIT_DEPTH credits for every receiver (R17). -/
def Chan.ofEntry (e : Entry) (receivers : Nat) : Chan :=
  { ent := e, recv := List.replicate receivers ⟨e.firstCredits, [], false, false⟩, flying := 0, pass := none,
    passes := 0, taken := 0, last := PassInfo.none, inbox := [], lineNo := 0, tokens := 0,
    started := false, stalls := 0, ring := 0, rx := none }

/-- Whether a channel identifier names a defined entry. -/
def State.hasChan (s : State) (i : Nat) : Bool := decide (i < s.chans.length)

/-- A channel; an undefined one reads as unused. -/
def State.chan (s : State) (i : Nat) : Chan := s.chans.getD i (Chan.ofEntry Entry.unused 1)

/-- A channel changed; an undefined one stays undefined. -/
def State.onChan (s : State) (i : Nat) (f : Chan → Chan) : State :=
  { s with chans := s.chans.modify i f }

/-- The channel whose SOURCE is a port of a unit of this device. -/
def State.chanFrom (s : State) (cls idx port : Nat) : Option Nat :=
  s.chans.findIdx? (fun c => c.ent.kind != 0 && !c.ent.unplaced && field c.ent.source 22 10 == s.device &&
    field c.ent.source 0 22 == cls * 2 ^ 16 + idx * 256 + port)

/-- A channel table error counter and its SATURATED bit after `n` more (R24). DEDUCED (log 29). -/
def satCount (c n : Nat) (sat : Bool) : Nat × Bool :=
  if 2 ^ 32 - 1 ≤ c + n then (2 ^ 32 - 1, true) else (c + n, sat)

/-- `n` more in FLAGGED. -/
def Entry.addFlagged (e : Entry) (n : Nat) : Entry :=
  let r := satCount e.flagged n e.flaggedSat
  { e with flagged := r.1, flaggedSat := r.2 }

/-- `n` more in POISONED. -/
def Entry.addPoisoned (e : Entry) (n : Nat) : Entry :=
  let r := satCount e.poisoned n e.poisonedSat
  { e with poisoned := r.1, poisonedSat := r.2 }

/-- `n` more in DROPPED. -/
def Entry.addDropped (e : Entry) (n : Nat) : Entry :=
  let r := satCount e.dropped n e.droppedSat
  { e with dropped := r.1, droppedSat := r.2 }

/-- The frame number and epoch after one more frame (R24). DESIGN CHOICE (log 31). -/
def nextFrame (frame epoch : Nat) : Nat × Nat :=
  if frame = 2 ^ 32 - 1 then (0, (epoch + 1) % 2 ^ 16) else (frame + 1, epoch)

/-- The FLAGS of a publication header that a token's marks set (R258). -/
def Marks.flags (m : Marks) : Nat :=
  b2n m.flagged + 2 * b2n m.poisoned + 4 * b2n m.pad + 8 * b2n m.shedGap

/-- The FLAGS of two tokens together. -/
def orFlags (a b : Nat) : Nat := a ||| b

/-- A token's effect on its channel's entry and pass (R23, R24, R32). `number` gives the frame number and epoch
of a FRAME_START that its producer numbers itself (a camera); other producers count up from 0.
`payload` is what the digest takes. DEDUCED (log 26). -/
def Chan.record (c : Chan) (m : Marks) (number : Option (Nat × Nat)) (ts : Nat) (payload : List Byte) : Chan :=
  let fe :=
    if m.frameStart then
      match number with
      | some x => x
      | none => if c.started then nextFrame c.ent.frameNumber c.ent.epoch else (0, c.ent.epoch)
    else (c.ent.frameNumber, c.ent.epoch)
  let e := { c.ent with frameNumber := fe.1, epoch := fe.2, lastTs := ts, state := if c.stalls = 0 then 1 else c.ent.state }
  let e := if m.flagged then e.addFlagged 1 else e
  let e := if m.poisoned then e.addPoisoned 1 else e
  let open0 := if m.frameStart then some ⟨2 ^ 32 - 1, 0, 0, ts⟩ else c.pass
  let open1 := open0.map (fun p =>
    { p with crc := crc32c p.crc payload, tokens := p.tokens + 1, flags := orFlags p.flags m.flags })
  let c := { c with ent := e, pass := open1, started := c.started || m.frameStart, tokens := (c.tokens + 1) % 2 ^ 32 }
  match m.frameEnd, open1 with
  | true, some p =>
    let d := (p.crc ^^^ (2 ^ 32 - 1)) % 2 ^ 32
    { c with
      ent := { c.ent with digest := d }
      pass := none, passes := c.passes + 1
      last := ⟨fe.1, fe.2, d, p.tokens * e.tokenBytes, p.flags, p.ts⟩ }
  | _, _ => c

/-- Whether the sender may issue a token (R17, R20, R21): under hold a credit of every receiver,
under shed a credit of the leading one. -/
def Chan.canSend (c : Chan) : Bool :=
  if c.ent.shed then c.recv.any (fun r => decide (0 < r.credits)) else c.recv.all (fun r => decide (0 < r.credits))

/-- Whole frames waiting in a receiver's backlog. -/
def Receiver.frames (r : Receiver) : Nat := (r.backlog.filter (fun t => t.marks.frameStart)).length

/-- The tokens of the first frame that begins in a backlog taken out (R21). -/
def dropFrame (ts : List Token) : List Token :=
  let before := ts.takeWhile (fun t => !t.marks.frameStart)
  let rest := ts.dropWhile (fun t => !t.marks.frameStart)
  match rest with
  | [] => before
  | _ :: tl => before ++ tl.dropWhile (fun t => !t.marks.frameStart)

/-- The next token to a receiver marked with SHED_GAP. -/
def markGap (ts : List Token) : List Token :=
  match ts.takeWhile (fun t => !t.marks.frameStart), ts.dropWhile (fun t => !t.marks.frameStart) with
  | a, t :: tl => a ++ { t with marks := { t.marks with shedGap := true } } :: tl
  | a, [] => a

/-- A token offered to a receiver under shed (R21): issued at once when it holds a credit and nothing waits,
held back otherwise; beyond SHED_DEPTH whole frames the oldest is discarded. Answers the receiver, the tokens
issued to it and the frames dropped. DESIGN CHOICE (log 110). -/
def Receiver.offer (r : Receiver) (depth : Nat) (t : Token) : Receiver × List Token × Nat :=
  let t := if r.gap && t.marks.frameStart && r.backlog.isEmpty
    then { t with marks := { t.marks with shedGap := true } } else t
  if r.backlog.isEmpty && decide (0 < r.credits) then
    ({ r with credits := r.credits - 1, gap := if t.marks.frameStart then false else r.gap }, [t], 0)
  else
    let b := r.backlog ++ [t]
    let r1 := { r with backlog := b }
    if depth < r1.frames then
      let b1 := dropFrame b
      let started := b1.any (fun x => x.marks.frameStart)
      ({ r with backlog := if started then markGap b1 else b1, gap := r.gap || !started }, [], 1)
    else (r1, [], 0)

/-- Backlog tokens issued while credits last (R21). -/
def Receiver.drain : Nat → Receiver → Receiver × List Token
  | 0, r => (r, [])
  | n + 1, r =>
    match r.backlog with
    | [] => (r, [])
    | t :: ts =>
      if 0 < r.credits then
        let x := Receiver.drain n { r with credits := r.credits - 1, backlog := ts }
        (x.1, t :: x.2)
      else (r, [])

/-- Credits returned to the sender of a channel for its receiver `i`; an excess is dropped and each counts in FLAGGED (R128). -/
def Chan.credit (c : Chan) (i n : Nat) : Chan :=
  let have0 := match c.recv[i]? with | some r => r.credits | none => c.ent.creditDepth
  let room := c.ent.creditDepth - have0
  { c with
    recv := c.recv.modify i (fun r => { r with credits := r.credits + min n room })
    ent := if room < n then c.ent.addFlagged (n - room) else c.ent }

/-- A credit spent for the next token on every receiver that takes it at once (hold, R17). -/
def Chan.spend (c : Chan) : Chan :=
  if c.ent.shed then c else { c with recv := c.recv.map (fun r => { r with credits := r.credits - 1 }) }

/-- Whole-line writes of bytes from a line on; the last line is filled with zeros. -/
def bytesWrites (line : Nat) (bs : List Byte) (poison flagged : Bool) : List LineWrite :=
  rowWrites line (8 * bs.length) (leNat bs) poison flagged

/-- Lines of a Pewter store written from `next` on, modulo its size. -/
def ringLines (size next : Nat) (m : Table Line) (bs : List Byte) (poison flagged : Bool) : Table Line :=
  (rowWrites 0 (8 * bs.length) (leNat bs) poison flagged).foldl
    (fun m w => put Line.zero m ((next + w.line) % size) ⟨w.data, 0, w.poison, false, w.flagged, 0, 0⟩) m

/-- A Pewter engine's stores changed. -/
def State.onEe (s : State) (n : Nat) (f : Pewter → Pewter) : State :=
  if h : n < 2 then { s with ee := s.ee.set n (f s.ee[n]) } else s

/-- A Pewter engine's stores. -/
def State.pewter (s : State) (n : Nat) : Pewter := s.ee.getD n Pewter.empty

/-- Whether a line's bank group admits no access: it is off, or its zero-fill has not ended (R114). -/
def Core.shut (c : Core) (line : Nat) : Bool := !c.on.getLsbD (groupOf line)

/-- The partition that a channel owns in a core as a ring of whole tokens. -/
def State.ringPart (s : State) (c : Fin 7) (i : Nat) : Option Partition :=
  let e := (s.chan i).ent
  (s.partitions c).find? (fun p => p.channel == i && decide (e.tokenBytes ≤ p.size) && decide (0 < e.tokenBytes))

/-- Whole-line writes of a channel of scale blocks with the tags that its line count gives (R99). -/
def tagWrites (n height : Nat) (ws : List LineWrite) : List LineWrite :=
  ws.mapIdx (fun k w => { w with tag := some ((n + k) % max 1 height % 16) })

/-- A token that reaches a core's scratchpad from outside it (R121): its lines are claimed and written as it arrives, into the partition that the channel
owns, as a ring of whole tokens from the partition's base; a KIND 6 partition takes the step tags of a channel of scale blocks (R99). Tokens for a bank
group that admits no access, and those behind them, wait (R114). -/
def State.arrive (s : State) (i : Nat) (t : Token) : State :=
  let e := (s.chan i).ent
  let n := field e.dest 8 8
  if h : n < 6 then
    let c : Fin 7 := ⟨n, by omega⟩
    match s.ringPart c i with
    | some p =>
      let slot := (s.chan i).ring % (p.size / e.tokenBytes)
      let ws := bytesWrites (p.base / 64 + slot * (e.tokenBytes / 64)) t.data t.marks.poisoned t.marks.flagged
      if !(s.chan i).inbox.isEmpty || ws.any (fun w => s.cores[c].shut w.line) then s.onChan i (fun x => { x with inbox := x.inbox ++ [t] })
      else
        let tagged := e.elemFormat == 0x0D && p.kind == 6
        let first := if t.marks.frameStart then 0 else (s.chan i).lineNo
        (s.onChan i (fun x => { x with ring := x.ring + 1, lineNo := if tagged then first + ws.length else x.lineNo })).writeLines c none false
          (if tagged then tagWrites first e.height ws else ws)
    | none => s.onChan i (fun x => { x with inbox := x.inbox ++ [t] })
  else s

/-- Tokens that waited for a bank group go to the scratchpad (R114). -/
def State.arriveAll (s : State) (n : Nat) : State :=
  (List.range s.chans.length).foldl (fun s i =>
    let e := (s.chan i).ent
    if !e.multicast && field e.dest 8 14 == 0x0500 + n && !(s.chan i).inbox.isEmpty &&
        (if h : n < 6 then (s.ringPart ⟨n, by omega⟩ i).isSome else false) then
      (s.chan i).inbox.foldl (fun s t => s.arrive i t) (s.onChan i (fun x => { x with inbox := [] }))
    else s) s

/-- Whether a channel's tokens come from a unit that does not itself place them: cameras, pipelines, the time unit, links and
flows; a transfer of a core or of a Pewter engine has placed its bytes as its descriptor says (R136). -/
def Entry.fromUnit (e : Entry) : Bool :=
  e.kind == 0x08 || e.kind == 0x09 || ! [0x04, 0x05, 0x06, 0x07].contains (field e.source 16 6)

/-- A token that reaches its destination unit on this device: scratchpads take it into lines, a Pewter engine into its line
buffer (port 0) or weight store (port 1, R164), stacks and window pages
return the credit at once (R255); a pass from a unit fills a window page from its start on, token by token; other units hold it in their buffer until a command or an event consumes it. DESIGN CHOICE (log 32). -/
def State.deliver (s : State) (i : Nat) (t : Token) : State :=
  let e := (s.chan i).ent
  let cls := field e.dest 16 6
  let idx := field e.dest 8 8
  let hold := s.onChan i (fun x => { x with inbox := x.inbox ++ [t] })
  if e.multicast then hold
  else if cls = 0x05 then (if e.fromUnit then s.arrive i t else s)
  else if cls = 0x04 ∧ field e.dest 0 8 = 0 then
    s.onEe idx (fun p => { p with
      buf := ringLines 24576 p.next p.buf t.data t.marks.poisoned t.marks.flagged
      next := (p.next + ceilDiv t.data.length 64) % 24576 })
  else if cls = 0x04 ∧ field e.dest 0 8 = 1 then
    (s.onEe idx (fun p =>
      let k := if t.marks.frameStart then 0 else p.wnext
      { p with weights := ringLines 1024 k p.weights t.data t.marks.poisoned t.marks.flagged
               wnext := (k + ceilDiv t.data.length 64) % 1024 })).onChan i (fun x => x.credit 0 1)
  else if cls = 0x07 then
    let at0 := if t.marks.frameStart then 0 else (s.chan i).ring
    let s := if e.fromUnit then
        s.winWrite (e.dest % 2 ^ 13 * 4096 + at0 * e.tokenBytes) t.data
      else s
    s.onChan i (fun x => { x.credit 0 1 with ring := at0 + 1 })
  else if cls = 0x06 then s.onChan i (fun x => x.credit 0 1)
  else hold

/-- The branches of a channel: a Solder port each, or this device (R294, R295); one branch unless it is multicast. -/
def State.branches (s : State) (e : Entry) : List (Option Nat) :=
  if e.multicast then
    match s.stream.bind (fun st => st.relays.find? (fun r =>
      decide (r.first ≤ e.dest % 4096) && decide (e.dest % 4096 < r.first + r.count) && r.inPort == 0xFF)) with
    | some r => ((List.range 8).filter (fun p => r.outPorts.testBit p)).map some ++ (if r.isLocal then [none] else [])
    | none => [none]
  else [none]

/-- A token issued to receiver `k` of channel `i`: over Solder to another device, or to a unit of this one. -/
def State.issueTo (s : State) (i k : Nat) (t : Token) : State :=
  let e := (s.chan i).ent
  if e.multicast then
    match (s.branches e).getD k none with
    | some p => (t.packets 3 (e.dest % 4096) s.device i).foldl (fun s k => s.onPort p (fun x => x.push k)) s
    | none => s.deliver i t
  else if e.kind = 0x08 ∧ field e.dest 22 10 ≠ s.device then
    (t.packets 1 (field e.dest 22 10) s.device i).foldl (fun s k => s.sendPacket k none) s
  else s.deliver i t

/-- Tokens issued to the receivers of a channel, receiver by receiver. -/
def State.issueAll (s : State) (i : Nat) : Nat → List (List Token) → State
  | _, [] => s
  | k, ts :: rest => (ts.foldl (fun s t => s.issueTo i k t) s).issueAll i (k + 1) rest

/-- CHN_MISS_COUNT. -/
def rChnMiss : Nat := blkChn + 0x00C

/-- The unpinned entries that may lie in the channel cache beside the pinned ones (R25). -/
def State.cacheRoom (s : State) : Nat := 1024 - (s.chans.filter (fun c => c.ent.pinned)).length

/-- No token of the channel is in flight: every credit is with the sender or on its way back, and the buffer is empty. DESIGN CHOICE (log 27). -/
def Chan.settled (c : Chan) : Bool := c.inbox.isEmpty && c.recv.all (fun r => decide (c.ent.creditDepth ≤ r.credits + c.flying))

/-- Where the entry of channel `i` lies in the channel table (R22). -/
def State.entryAt (s : State) (i : Nat) : Nat := s.physical ((match s.stream with | some st => st.tableBase | none => 0) + 64 * i)

/-- An entry written to the channel table in stack memory (R22, R27). -/
def State.storeEntry (s : State) (i : Nat) : State :=
  if s.stream.isSome && s.hasChan i then s.memWrite (s.entryAt i) (s.chan i).ent.bytes else s

/-- An entry fetched from the channel table in stack memory (R25). -/
def State.fetchEntry (s : State) (i : Nat) : State :=
  if s.stream.isSome then s.onChan i (fun c => { c with ent := entryOf (s.memBytes (s.entryAt i) 64) }) else s

/-- A change that the device makes to an entry outside the channel cache is made in stack memory (R22). -/
def State.syncEntry (s : State) (i : Nat) : State := if (s.chan i).ent.pinned || s.cached.contains i then s else s.storeEntry i

/-- A token that moves on channel `i` finds its entry in the channel cache or fetches it from the table in stack memory (R25-R27): a miss counts, and a full
cache writes back whole and gives up an entry with no token in flight, a free choice. DESIGN CHOICE (log 27). -/
def State.lookEntry (s : State) (i : Nat) : State :=
  if (s.chan i).ent.pinned || s.cached.contains i || !s.hasChan i then s
  else
    let s := s.count rChnMiss 1
    if s.cached.length < s.cacheRoom then { s.fetchEntry i with cached := s.cached ++ [i] }
    else
      let idle := s.cached.filter (fun j => (s.chan j).settled)
      let (x, s) := s.fresh
      match idle[x % max 1 idle.length]? with
      | some j => { (s.storeEntry j).fetchEntry i with cached := s.cached.filter (· != j) ++ [i] }
      | none => s

/-- A token whole lost on a channel: DROPPED counts, and SENSOR_RATE clears on a channel under the guarantee (R35). -/
def State.dropToken (s : State) (i n : Nat) : State :=
  let s1 := (s.onChan i (fun c => { c with ent := c.ent.addDropped n })).syncEntry i
  if (s.chan i).ent.sensorRate && decide (0 < n) then s1.clearGuarantee 4 else s1

/-- A token sent on channel `i`, its credit already spent under hold (R17-R21, R23, R32): the entry and pass are updated and the
token is issued to every receiver that can take it. `shedAt` is the ERR_SHED_DROP cell of the sending unit. On a KILLED channel it is discarded (R72). -/
def State.send (s : State) (i : Nat) (m : Marks) (number : Option (Nat × Nat)) (ts : Nat) (payload digested : List Byte)
    (shedAt : Nat) : State :=
  if (s.chan i).ent.state = 4 then s.dropToken i 1
  else
  let s := s.lookEntry i
  let c := (s.chan i).record m number ts digested
  let t : Token := ⟨m, c.ent.frameNumber, c.ent.epoch, ts, payload⟩
  if c.ent.shed then
    let rs := c.recv.map (fun r => r.offer c.ent.shedDepth t)
    let drops := rs.foldl (fun n x => n + x.2.2) 0
    let c := { c with recv := rs.map (·.1), ent := c.ent.addDropped drops }
    ((s.onChan i (fun _ => c)).count shedAt drops).issueAll i 0 (rs.map (fun x => x.2.1))
  else (s.onChan i (fun _ => c)).issueAll i 0 (c.recv.map (fun _ => [t]))

/-- The oldest token of a channel's buffer taken by its consumer. -/
def State.takeToken (s : State) (i : Nat) : Option Token × State :=
  match (s.chan i).inbox with
  | [] => (none, s)
  | t :: ts => (some t, s.onChan i (fun c => { c with inbox := ts }))

/-- A token that reaches this device's end of a channel: its entry and pass follow the token's own numbers, a SHED_GAP counts DROPPED (R295),
and it goes to its unit. A token in flight to a KILLED channel is discarded and counts DROPPED (R72). -/
def State.takeIn (s : State) (i : Nat) (t : Token) : State :=
  if (s.chan i).ent.state = 4 then s.dropToken i 1
  else
  let s := (s.lookEntry i).onChan i (fun c =>
    let c := c.record t.marks (some (t.frame, t.epoch)) t.ts t.data
    if t.marks.shedGap then { c with ent := c.ent.addDropped 1 } else c)
  s.deliver i t

/-! ### Multicast relays (R294, R295) -/

/-- The relay entry of a group for an arriving port (0xFF: this device is the sender). -/
def State.relayEntry (s : State) (group inPort : Nat) : Option Relay :=
  s.stream.bind (fun st => st.relays.find? (fun r =>
    decide (r.first ≤ group) && decide (group < r.first + r.count) && r.inPort == inPort))

/-- The branches of a relay entry: its ports in ascending order, then this device. -/
def Relay.branches (r : Relay) : List (Option Nat) :=
  ((List.range 8).filter (fun p => r.outPorts.testBit p)).map some ++ (if r.isLocal then [none] else [])

/-- A token sent on a branch of a relayed flow. -/
def State.branchSend (s : State) (f : RelayFlow) (k : Nat) (t : Token) : State :=
  match ((s.relayEntry f.group f.inPort).map Relay.branches).getD [] |>.getD k none with
  | some p => (t.packets 3 f.group f.src f.channel).foldl (fun s k => s.onPort p (fun x => x.push k)) s
  | none => if s.hasChan f.channel then s.takeIn f.channel t else s

/-- A relayed flow's record set in place of the one of its group and channel. -/
def State.setFlow (s : State) (f : RelayFlow) : State :=
  { s with relayed := f :: s.relayed.filter (fun g => !(g.group == f.group && g.channel == f.channel)) }

/-- The largest and the smallest of a list of counts. -/
def maxOf (xs : List Nat) : Nat := xs.foldl max 0
def minOf (xs : List Nat) : Nat := match xs with | [] => 0 | x :: r => r.foldl min x

/-- Credits combined upstream (R295): what every branch has returned under hold, what the leading branch has returned under shed. -/
def State.combine (s : State) (f : RelayFlow) : State :=
  let t := if f.policy.isSome then maxOf f.back else minOf f.back
  if f.up < t then
    (s.setFlow { f with up := t }).onPort f.inPort (fun p => p.push ⟨4, 1, 0, f.group, s.device, f.channel, min 255 (t - f.up), 0, []⟩)
  else s.setFlow f

/-- Credits that branch `k` of a relayed flow returns: tokens held back for it go on, and credits combine (R295). -/
def State.branchCredit (s : State) (f : RelayFlow) (k n : Nat) : State :=
  let f := { f with back := f.back.modify k (· + n) }
  match f.policy with
  | none => s.combine f
  | some _ =>
    let r := (f.branches.getD k ⟨0, [], false, false⟩)
    let x := Receiver.drain (r.backlog.length + 1) { r with credits := r.credits + n }
    x.2.foldl (fun s t => s.branchSend f k t) (s.combine { f with branches := f.branches.set k x.1 })

/-- Credits returned by the consumer of a channel (R17, R128): on their way to a sender on this device, as CREDIT packets
of at most 255 to a sender on another, or to this device's branch of a multicast tree. -/
def State.returnCredits (s : State) (i n : Nat) : State :=
  let e := (s.chan i).ent
  if n = 0 then s
  else if e.kind = 0x08 ∧ field e.source 22 10 ≠ s.device then
    match s.relayed.find? (fun f => f.channel == i) with
    | some f => s.branchCredit f (f.back.length - 1) n
    | none => (List.range (ceilDiv n 255)).foldl (fun s k =>
        s.sendPacket ⟨2, 1, 0, field e.source 22 10, s.device, i, min 255 (n - 255 * k), 0, []⟩ none) s
  else s.onChan i (fun c => { c with flying := c.flying + n })

/-- The cell of an ERR_ counter kept per unit (ERR_UNIT_SEL, R339). -/
def errCell (unitField off : Nat) : Nat := bank unitField (blkErr + off)

/-- ERR_CLAIM_IGNORED (R10). -/
def rClaimIgnored : Nat := blkErr + 0x028

/-- ERR_POISONED_TILE, ERR_SCALE_SKEW, ERR_LATE_LAUNCH, ERR_SKIPPED_PIN_ACTION and ERR_SHED_DROP of a unit. -/
def cPoisonedTile (u : UnitId) : Nat := errCell (unitField u) 0x010
def cScaleSkew (u : UnitId) : Nat := errCell (unitField u) 0x014
def cLateLaunch (u : UnitId) : Nat := errCell (unitField u) 0x018
def cSkippedPin (u : UnitId) : Nat := errCell (unitField u) 0x01C
def cShedDrop (u : UnitId) : Nat := errCell (unitField u) 0x024

/-! ## Commands of queues: readiness, start, completion (R63-R69) -/

/-- The lists of a queue in the current phase, in PROGRAMS order (R66); Invar's queues take the LEGAL segment's. -/
def State.listsOf (s : State) (q : QueueId) : List ListRec :=
  if q.unit = .invar then s.job.invLists.filter (fun l => l.queue == q)
  else s.job.lists.filter (fun l => l.queue == q && l.phase == s.job.phase)

/-- The list a queue stands in. -/
def State.currentList (s : State) (q : QueueId) : Option ListRec := (s.listsOf q)[(s.queue q).li]?

/-- The fetch buffer's first command once it holds the command at `pc` (R60): a command that it still holds is not fetched again, a backward JUMP's
target included; any other starts a refill there, of that command and up to 64 ahead. DESIGN CHOICE (log 107). -/
def QState.refill (k : QState) : Option Nat :=
  match k.buffer with
  | some b => if b ≤ k.pc ∧ k.pc ≤ b + 64 then some b else some k.pc
  | none => some k.pc

/-- The next command a queue would start (R60, R66): none when its lists are finished or an END command is in progress. DESIGN CHOICE (log 3). -/
def State.fetch (s : State) (q : QueueId) : Option Command :=
  if (s.queue q).ended then none
  else (s.currentList q).bind (fun l => l.cmds[(s.queue q).pc]?)

/-- Whether a queue runs: the main stream's while STATE is RUNNING; Invar's whenever its segment runs (R319). -/
def State.live (s : State) (q : QueueId) : Bool :=
  if q.unit = .invar then !s.job.invLists.isEmpty else s.job.state == .running && !s.job.holding

/-- Rule 1 of R63: the awaited counter has reached WAIT_VALUE, modulo 2^16. -/
def State.waitMet (s : State) (q : QueueId) (h : Header) : Bool :=
  let c := if h.waitBank then s.doorbell h.waitCtr else s.token q.unit h.waitCtr
  !h.wait || decide ((c + 2 ^ 16 - h.waitValue % 2 ^ 16) % 2 ^ 16 < 0x8000)

/-- Pin-and-timing commands, class 0x98-0x9F (R68). -/
def bodyIsPin : Body → Bool
  | .pinSet _ | .pinPulse _ | .pgStart _ | .pgStop _ | .capArm _ | .capDisarm _ => true
  | _ => false

/-- tPIN_ARM, 256 ns in ticks (R68). -/
def tPinArm : Nat := 4096

/-- The participants of a barrier in the current phase (R69). DEDUCED (log 23). -/
def State.participants (s : State) (q : QueueId) (b : Nat) : List QueueId :=
  let ls := if q.unit = .invar then s.job.invLists else s.job.lists.filter (fun l => l.phase == s.job.phase)
  ((ls.filter (fun l => l.cmds.any (fun c => match c.body with | .barrier o => o.id == b | _ => false))).map
    (·.queue)).eraseDups

/-- A camera. -/
def State.cam (s : State) (c : Nat) : Camera := s.cams.getD c Camera.idle

/-- A camera changed. -/
def State.onCam (s : State) (c : Nat) (f : Camera → Camera) : State :=
  if h : c < 16 then { s with cams := s.cams.set c (f s.cams[c]) } else s

/-- A camera's channel (R179: its SOURCE is CAMn, port 0). -/
def State.camChan (s : State) (c : Nat) : Option Nat := s.chanFrom 0x01 c 0

/-- The pipeline and the slot that a camera's channel ends at: slot 0 is in-line. -/
def State.camDest (s : State) (c : Nat) : Option (Nat × Nat) :=
  (s.camChan c).bind (fun i =>
    let d := (s.chan i).ent.dest
    if field d 16 6 = 0x02 ∧ 0x20 ≤ field d 0 8 ∧ field d 0 8 < 0x30 then some (field d 8 8, field d 0 8 - 0x20) else none)

/-- The channels of the outputs that a camera's back-end sets enable (R204). -/
def State.backChans (s : State) (c : Nat) : List Nat :=
  match s.camDest c with
  | some d =>
    let b := match (s.cam c).bsets[0]? with | some (some x) => x.data | _ => []
    (List.range 3).filterMap (fun o => if u8 b (8 + 16 * o) = 0 then none else s.chanFrom 0x03 d.1 (0x30 + 3 * d.2 + o))
  | none => []

/-- What keeps a command from starting, in the order of R63; `none` when it is ready. Rule 3, the launch rule, is applied by `issue`. -/
def State.blocked (s : State) (q : QueueId) (h : Header) (b : Body) : Option QWait :=
  if s.switchingOn q.unit then some ⟨8, 0, false, 0⟩
  else if !s.waitMet q h then some ⟨1, h.waitCtr, h.waitBank, 0⟩
  else match b with
    | .xfer o => if (s.chan o.channel).canSend then none else some ⟨2, 0, false, o.channel⟩
    | .nWrite o => if (s.chan o.channel).canSend then none else some ⟨2, 0, false, o.channel⟩
    | .ppBRows o => ((s.backChans o.camera).find? (fun i => !(s.chan i).canSend)).map (fun i => ⟨2, 0, false, i⟩)
    | .pub o => if (s.chan o.channel).taken < (s.chan o.channel).passes then none else some ⟨9, 0, false, o.channel⟩
    | .launchAt o => if (look LaunchTimer.unused s.timers o.timer).busy then some ⟨3, 0, false, 0⟩ else none
    | .barrier _ => if (s.queue q).prog.isEmpty then none else some .running
    | .sctlWrite _ => if (s.queue q).prog.isEmpty then none else some .running
    | .sctlRead _ => if (s.queue q).prog.isEmpty then none else some .running
    | .sctlCcc _ => if (s.queue q).prog.isEmpty then none else some .running
    | _ => none

/-- The record of a command in progress changed. -/
def State.onProg (s : State) (h : Holder) (f : InProg → InProg) : State :=
  s.onQueue h.queue (fun k => { k with prog := k.prog.map (fun e => if e.seq == h.seq then f e else e) })

/-- The record of a command in progress: the newest of its number. -/
def State.prog (s : State) (h : Holder) : Option InProg := (s.queue h.queue).prog.reverse.find? (fun e => e.seq == h.seq)

/-- The command's work is finished: it may complete. DESIGN CHOICE (log 4). -/
def State.worked (s : State) (h : Holder) : State := s.onProg h (fun e => { e with worked := true })

/-- A command started: it is in progress, and the queue moves past it; after an END command the queue starts nothing
until the list completes (R66). DESIGN CHOICE (log 4). -/
def State.begin (s : State) (q : QueueId) (c : Command) : Holder × State :=
  let k := s.queue q
  let e : InProg := ⟨k.seq, k.pc, s.now, c, false, false, false, Mover.idle⟩
  (⟨q, k.seq⟩, s.setQueue q { k with
    pc := k.pc + 1, ended := c.hdr.last, wait := .running, prog := k.prog ++ [e], seq := k.seq + 1, buffer := k.refill })

/-- A timer's launch resolved (R67). -/
def State.resolveTimer (s : State) (t : Nat) : State :=
  { s with timers := tweak LaunchTimer.unused s.timers t (fun x => { x with busy := false, waiting := none }) }

/-- The launches of the timers that `p` names cancelled; the tick last scheduled stays (R67, R72). -/
def cancelTimers (p : Nat → LaunchTimer → Bool) (m : Table LaunchTimer) : Table LaunchTimer :=
  (m.map (fun e => if p e.1 e.2 then (e.1, { e.2 with busy := false, waiting := none }) else e)).filter (fun e => e.2 != LaunchTimer.unused)

/-- A command of a queue started, with its work. -/
def State.startCmd (s : State) (q : QueueId) (c : Command) (work : Holder → State → State) : State :=
  let r := s.begin q c
  work r.1 r.2

/-- A TIMED pin action that is late: skipped, counted, and it completes and signals as usual (R68). -/
def State.skipPin (s : State) (q : QueueId) (c : Command) : State :=
  let r := s.begin q c
  (r.2.worked r.1).count (cSkippedPin q.unit) 1

/-- The pin that a pin command drives, whose positive offset lengthens the arm lead (R237). -/
def State.pinOfBody (s : State) : Body → Option Nat
  | .pinSet o => some o.pin
  | .pinPulse o => some o.pin
  | .pgStart o => some o.pin
  | .pgStop o => some ((s.time.gens.toList.getD o.pg Gen.idle).pin)
  | _ => none

/-- A pin's offset in effect, in signed ticks (TIME_EVT_OFFSETn.ACTIVE, R242). -/
def State.pinOffset (s : State) (pin : Nat) : Int := signed 16 (s.regField (blkTime + 0x100 + 4 * pin) 16 16)

/-- The arm lead of a pin action (R68, R237). -/
def State.armLead (s : State) (b : Body) : Nat :=
  tPinArm + match s.pinOfBody b with | some p => (s.pinOffset p).toNat | none => 0

/-- A ready TIMED command under the launch rule (R67, R68). A pin action is armed, up to 16 of them, and its queue goes on (R236). DESIGN CHOICE (log 21). DESIGN CHOICE (log 110). -/
def State.launch (s : State) (q : QueueId) (c : Command) (work : Holder → State → State) : State :=
  match (s.queue q).armed with
  | none => s.startCmd q c work
  | some t =>
    let x := look LaunchTimer.unused s.timers t
    let s0 := s.onQueue q (fun k => { k with armed := none })
    let wait := { s.onQueue q (fun k => { k with wait := ⟨3, 0, false, 0⟩ }) with
      timers := put LaunchTimer.unused s.timers t { x with waiting := some q } }
    if bodyIsPin c.body then
      if 16 ≤ s.time.armed.length then wait
      else if s.now + s.armLead c.body ≤ x.sched then
        let r := s0.begin q c
        { r.2.onProg r.1 (fun e => { e with tick := x.sched }) with
          time := { s.time with armed := s.time.armed ++ [⟨t, x.sched, r.1, c.body⟩] }
          timers := put LaunchTimer.unused s.timers t { x with waiting := none } }
      else (s0.resolveTimer t).skipPin q c
    else if s.now < x.sched then wait
    else if s.now = x.sched then (s0.resolveTimer t).startCmd q c work
    else ((s0.resolveTimer t).startCmd q c (fun h s => work h (s.onProg h (fun e => { e with mover := { e.mover with late := true } })))).count (cLateLaunch q.unit) 1

/-- A command presented by its queue (R63): only the command the queue stands at is considered; while a condition of R63
fails the queue waits and Q_WAIT says for what; otherwise it starts. DESIGN CHOICE (log 3). -/
def State.issue (s : State) (q : QueueId) (c : Command) (work : Holder → State → State) : State :=
  if !s.live q then s
  else if s.fetch q ≠ some c then s
  else match s.blocked q c.hdr c.body with
    | some w => s.onQueue q (fun k => { k with wait := w })
    | none => if c.hdr.timed then s.launch q c work else s.startCmd q c work

/-- The next list of the phase (R66): its loop slots are clear; after the last the queue idles. -/
def State.nextList (s : State) (q : QueueId) : State :=
  let k := s.queue q
  let n := k.li + 1
  let idle := decide ((s.listsOf q).length ≤ n)
  s.setQueue q { k with li := n, pc := 0, ended := false, slots := Vector.replicate 4 none, buffer := none,
                        wait := if idle then ⟨5, 0, false, 0⟩ else .running }

/-- The unit that a command signals (R61): its own, or the placed unit of SIGNAL_UNIT. -/
def signalTarget (q : QueueId) (h : Header) : UnitId :=
  if h.signalUnit = 0 then q.unit else (unitOfField h.signalUnit).getD q.unit

/-- Whether a command signals per token and not at its completion (R135). -/
def tokenSignals : Body → Bool
  | .xfer o => o.xflags.testBit 2
  | _ => false

/-! ## What a command does as it completes -/

/-- The channel whose DEST is port 0 of a Pewter engine (R202). -/
def State.portZero (s : State) (n : Nat) : Option Nat :=
  (List.range s.chans.length).find? (fun i =>
    let e := (s.chan i).ent
    e.kind != 0 && !e.multicast && field e.dest 16 6 == 0x04 && field e.dest 8 8 == n && field e.dest 0 8 == 0)

/-- An Ethernet port; ports above 3 do not exist. -/
def State.ethPort (s : State) (n : Nat) : EthPort := s.eth.getD n EthPort.idle

/-- An Ethernet port changed. -/
def State.onEth (s : State) (n : Nat) (f : EthPort → EthPort) : State :=
  if h : n < 4 then { s with eth := s.eth.set n (f s.eth[n]) } else s

/-- CAMn_SCTL_STATUS and CAMn_SCTL_NACK of a sensor-control port (R190). -/
def rSctlStatus (n : Nat) : Nat := blkCam n + 0x080
def rSctlNack (n : Nat) : Nat := blkCam n + 0x084

/-- A sensor-control command ends (R190): a final NACK counts and sets LAST_NACK; a successful write records its reference frame, the latest
frame start whose tick is at or before the completion. -/
def State.endSctl (s : State) (u : UnitId) (nack : Bool) (ref : Option (Nat × Nat)) : State :=
  if nack then (s.count (rSctlNack (unitIndex u)) 1).setRegField (rSctlStatus (unitIndex u)) 2 1 1
  else match ref with
    | some (cam, group) =>
      if cam = 0xFF then s
      else s.onCam cam (fun k => { k with refs := put none k.refs group ((k.starts.find? (fun x => decide (x.1 ≤ s.now))).map (·.2)) })
    | none => s

/-- The number after `n` in the sequence 1, 2, …, 0xFFFF_FFFF, 1, … (R70). -/
def seqNext (n : Nat) : Nat := if 2 ^ 32 - 1 ≤ n then 1 else n + 1

/-- COMPLETE completes (R71): COMPLETED steps, and the completion record is written to its slot, SEQ last, with the phase and the time of the completion. -/
def State.writeCompletion (s : State) (q : QueueId) (o : CompleteOps) : State :=
  let seq := seqNext (look 0 s.job.completed o.doorbell)
  let since := look 0 s.job.dbMark o.doorbell
  let status := ((s.queue q).marks.filter (fun m => decide (since < m.1))).foldl (fun a m => a ||| m.2) 0
  let slot := o.ringPage * 4096 + (seq - 1) % (256 * o.ringPages) * 16
  let rest := leBytes 1 o.doorbell ++ leBytes 1 status ++ leBytes 2 s.job.phase ++ leBytes 8 s.now
  let s := (s.winWrite (slot + 4) rest).winWrite slot (leBytes 4 seq)
  { s with job := { s.job with
    completed := put 0 s.job.completed o.doorbell seq, dbMark := put 0 s.job.dbMark o.doorbell s.job.markNo } }

/-- Effects that the spec places at a command's completion: COMPLETE's record (R71), EWIN returns its credits (R166), PP_BAND's setting waits for a frame start (R198),
flow table entries take effect (R302), and a sensor-control transaction ends (R190). DESIGN CHOICE (log 4). -/
def State.atEnd (s : State) (q : QueueId) (e : InProg) : State :=
  match e.cmd.body with
  | .complete o => s.writeCompletion q o
  | .ewin o =>
    match s.portZero (unitIndex q.unit) with
    | some i => s.returnCredits i o.credits
    | none => s
  | .ppBand o => s.onCam o.camera (fun k => { k with bandNext := some ⟨o.cores, o.bandRows, o.halo⟩ })
  | .ethFlow o =>
    s.onEth (unitIndex q.unit) (fun p => { p with
      flows := (List.range o.count).foldl (fun m i => put [] m ((o.first + i) % 256) (slice e.mover.buf (32 * i) 32)) p.flows })
  | .sctlWrite o => s.endSctl q.unit e.mover.bad (some (o.camera, o.group))
  | .sctlRead _ => s.endSctl q.unit e.mover.bad none
  | .sctlCcc _ => s.endSctl q.unit e.mover.bad none
  | _ => s

/-- The effects of one completed command, in command order (R63, R64, R66): its claims end, its counter is signalled,
its IRQ is raised, and an END ends its list unless it is a taken JUMP. -/
def State.finish (s : State) (q : QueueId) (e : InProg) : State :=
  let s := (s.release ⟨q, e.seq⟩).atEnd q e
  let s := if e.cmd.hdr.signal && !tokenSignals e.cmd.body
    then s.signal (signalTarget q e.cmd.hdr) e.cmd.hdr.signalCtr else s
  let s := if e.cmd.hdr.irq then s.irq .cmdIrq else s
  if e.cmd.hdr.last && !e.taken then s.nextList q else s

/-- Completed commands leave the front of the queue (R63: completions take effect in command order). DESIGN CHOICE (log 5). -/
def State.retire : Nat → QueueId → State → State
  | 0, _, s => s
  | n + 1, q, s =>
    match (s.queue q).prog with
    | [] => s
    | e :: es =>
      if e.done then
        State.retire n q ((s.onQueue q (fun k => { k with prog := es })).finish q e)
      else s

/-- A command completed (R64). -/
def State.completeCmd (s : State) (h : Holder) : State :=
  let s := s.onProg h (fun e => { e with worked := true, done := true })
  State.retire (s.queue h.queue).prog.length h.queue s

/-- The oldest command whose work is finished and that has not completed. DESIGN CHOICE (log 5). -/
def State.oldest (s : State) (q : QueueId) : Option InProg := (s.queue q).prog.find? (fun e => !e.done)

/-- A mark that a command's queue consumed (R71): bit 0 FLAGGED, bit 1 POISONED. -/
def State.noteMarks (s : State) (q : QueueId) (poisoned flagged : Bool) : State :=
  if poisoned || flagged then
    let n := s.job.markNo + 1
    { s.onQueue q (fun k => { k with marks := k.marks ++ [(n, b2n flagged + 2 * b2n poisoned)] }) with
      job := { s.job with markNo := n } }
  else s

end Sys2Proof.Machine
end

