-- ==== Sys2Proof/Machine/Interleave.lean ====
section
/-! DEFINITION. Machine/Interleave.lean: canonical addresses, the interleave description, its commit and its discovery (R248-R253). -/

namespace Sys2Proof.Machine

open Sys2Proof

/-! ## The map (R249) -/

/-- Parity of a number's bits below `n`. -/
def parityBelow : Nat → Nat → Bool
  | 0, _ => false
  | n + 1, x => xor (x.testBit n) (parityBelow n x)

/-- The canonical address of an aperture offset: A[j] = parity(H & MASK[j - 5]) ^ OFFSET[j] for j = 5 to 32, A[4:0] = H[4:0]. -/
def Interleave.canonical (d : Interleave) (h : Nat) : Nat :=
  (List.range 28).foldl (fun a i =>
    if xor (parityBelow 33 (h &&& d.masks.getD i 0)) (d.offset.testBit (i + 5)) then a + 2 ^ (i + 5) else a) (h % 32)

/-- A row of a linear system over GF(2): its coefficients and its right side. -/
abbrev Gf2Row := Nat × Bool

/-- One column of an elimination: a pivot found among the rows left, and its bit cleared in every other row. -/
def gf2Column (k : Nat) (done rest : List Gf2Row) : Option (List Gf2Row × List Gf2Row) :=
  match rest.find? (fun r => r.1.testBit k) with
  | none => none
  | some p =>
    let f (r : Gf2Row) : Gf2Row := if r.1.testBit k then (r.1 ^^^ p.1, xor r.2 p.2) else r
    some (done.map f ++ [p], (rest.erase p).map f)

/-- The elimination over columns `k` to `k + n - 1`; with no pivot, the column at which it fails. -/
def gf2Solve : Nat → Nat → List Gf2Row → List Gf2Row → Except Nat (List Gf2Row)
  | 0, _, done, _ => .ok done
  | n + 1, k, done, rest =>
    match gf2Column k done rest with
    | none => .error k
    | some r => gf2Solve n (k + 1) r.1 r.2

/-- The rows of a description for a canonical address. -/
def Interleave.rows (d : Interleave) (a : Nat) : List Gf2Row :=
  (List.range 28).map (fun i => (d.masks.getD i 0, xor (a.testBit (i + 5)) (d.offset.testBit (i + 5))))

/-- The aperture offset of a canonical address; zero where the map has none. -/
def Interleave.aperture (d : Interleave) (a : Nat) : Nat :=
  match gf2Solve 28 5 [] (d.rows a) with
  | .ok rs => (rs.zipIdx).foldl (fun h r => if r.1.2 then h + 2 ^ (r.2 + 5) else h) (a % 32)
  | .error _ => 0

/-- Bits outside [32:5]. -/
def outside (x : Nat) : Bool := x % 32 != 0 || decide (2 ^ 33 ≤ x)

/-- Why a description is not invertible: the H bit or A bit concerned; a mask or an offset may not have bits outside [32:5]. DESIGN CHOICE (log 82). -/
def Interleave.singular (d : Interleave) : Option Nat :=
  if outside d.offset then some 0
  else match (List.range 28).find? (fun i => outside (d.masks.getD i 0)) with
    | some i => some (i + 5)
    | none => match gf2Solve 28 5 [] (d.rows 0) with | .ok _ => none | .error k => some k

/-! ## Canonical addresses (R248, R250) -/

/-- The channel of a canonical address. -/
def canonChannel (a : Nat) : Nat := field a 31 2

/-- A burst in bank 0, row 0 of its channel. -/
def inBootstrap (a : Nat) : Bool := field a 11 20 == 0

/-- The bursts of the bootstrap block: bank 0, row 0 of the four channels. -/
def bootstrapBursts : List Nat := (List.range 4).flatMap (fun c => (List.range 64).map (fun k => 2 ^ 31 * c + 32 * k))

/-- The bootstrap pages of a description (R250). -/
def Interleave.bootPages (d : Interleave) : List Nat := (bootstrapBursts.map (fun a => d.aperture a / 4096)).eraseDups

/-- The first and last aperture page of the register page (R254). -/
def regPageFirst : Nat := 2097088

/-- An aperture page of the register page. -/
def isRegPage (p : Nat) : Bool := decide (regPageFirst ≤ p) && decide (p ≤ 2097151)

/-! ## Commit (R251) -/

/-- The first check of a commit that fails, with BIT and IL_DETAIL: SINGULAR, a bootstrap burst in the register page, one in a page of the window map. DESIGN CHOICE (log 82). -/
def State.commitFault (s : State) (d : Interleave) : Option (Nat × Nat × Nat) :=
  match d.singular with
  | some b => some (4, b, 0)
  | none =>
    let ps := d.bootPages
    match ps.find? isRegPage with
    | some p => some (6, 0, p)
    | none =>
      let map := match s.stream with | some st => st.winMap.map WinMap.aperture | none => []
      match ps.find? (fun p => map.contains p) with
      | some p => some (6, 0, p)
      | none => none

/-- A description committed, or refused with RESULT; the one in effect stays where a check fails. STATE is then 1, or 0 for a commit of the identity by its own command. DESIGN CHOICE (log 82). -/
def State.commit (s : State) (d : Interleave) (committed : Bool) : State :=
  match s.commitFault d with
  | some (r, b, p) => { s with host := { s.host with result := r, bit := b, detail := p, committing := false } }
  | none => { s with host := { s.host with active := d, committed := committed, result := 1, bit := 0, detail := 0, committing := false } }

/-- IL_COMMIT: RESULT 0 while the checks and the switch go on. -/
def State.ilCommit (s : State) : State := { s with host := { s.host with result := 0, bit := 0, detail := 0, committing := true } }

/-- IL_COMMIT_DONE. -/
def State.ilCommitDone (s : State) : State := if s.host.committing then s.commit s.host.staged true else s

/-- IDENTITY: the identity committed. DESIGN CHOICE (log 82). -/
def State.ilIdentity (s : State) : State := s.commit Interleave.identity false

/-! ## Discovery (R252, R253) -/

/-- DISCOVER_START. -/
def State.discoverStart (s : State) : State :=
  { s with host := { s.host with
      discovery := true, result := 0, bit := 0, detail := 0, captures := [], overflow := false, malformed := false, deducing := false } }

/-- A discovery write captured; a burst beyond the 32nd overflows, one that is not a full burst is BAD_BURST. -/
def State.capture (s : State) (a : Nat) (data : List Byte) (full : Bool) : State :=
  let p := s.host
  if !full then { s with host := { p with malformed := true } }
  else if 32 ≤ p.captures.length then { s with host := { p with overflow := true } }
  else { s with host := { p with captures := p.captures ++ [(a, leAt data 8 8)] } }

/-- DISCOVER_END: STATE returns at once; the map is derived later. -/
def State.discoverEnd (s : State) : State :=
  if s.host.discovery then { s with host := { s.host with discovery := false, deducing := true } } else s

/-- The canonical address captured for an aperture offset. -/
def captured (cs : List (Nat × Nat)) (h : Nat) : Option Nat := (cs.find? (fun c => c.2 == h)).map (·.1)

/-- The description whose columns are the captures for 2^5 to 2^32. -/
def derived (cs : List (Nat × Nat)) (offset : Nat) : Interleave :=
  let col (k : Nat) : Nat := ((captured cs (2 ^ k)).getD 0) ^^^ offset
  ⟨offset, (List.range 28).map (fun i => (List.range 28).foldl (fun m k => if (col (k + 5)).testBit (i + 5) then m + 2 ^ (k + 5) else m) 0)⟩

/-- The result of a derivation: RESULT and BIT, and the description on OK. DESIGN CHOICE (log 82). -/
def deduce (p : HostPort) : Nat × Nat × Interleave :=
  let cs := p.captures
  if p.overflow then (5, 0, p.staged)
  else if p.malformed then (7, 0, p.staged)
  else match captured cs 0 with
    | none => (2, 0, p.staged)
    | some off =>
      match (List.range 28).find? (fun k => (captured cs (2 ^ (k + 5))).isNone) with
      | some k => (2, k + 5, p.staged)
      | none =>
        let d := derived cs off
        match d.singular with
        | some b => (4, b, p.staged)
        | none =>
          match cs.find? (fun c => d.canonical c.2 != c.1) with
          | some c => (3, ((List.range 33).find? (fun i => (d.canonical c.2 ^^^ c.1).testBit i)).getD 0, p.staged)
          | none => (1, 0, d)

/-- IL_DERIVE_DONE: RESULT is set; on OK the map is staged. -/
def State.deriveDone (s : State) : State :=
  if s.host.deducing then
    let r := deduce s.host
    { s with host := { s.host with result := r.1, bit := r.2.1, detail := 0, staged := r.2.2, deducing := false } }
  else s

end Sys2Proof.Machine
end

