-- ==== Sys2Proof/Machine/StackLink.lean ====
section
/-! DEFINITION. Machine/StackLink.lean: the stack-link controller: channels and lines, commands and check words, the rotation over working links, the replay
buffer (R270, R273-R278).

Stack memory itself holds every write from the moment it is made, so that a read sees it as the replay buffer makes it see it (R276). -/

namespace Sys2Proof.Machine

open Sys2Proof

/-! ## Channels and lines (R270) -/

/-- The channel of an offset within a stack. -/
def stackChannel (o : Nat) : Nat := field o 8 3 ^^^ field o 11 3 ^^^ field o 14 3 ^^^ field o 17 3

/-- The 64-byte line of an offset within its channel: {O[32:11], O[7:6]}. -/
def stackLine (o : Nat) : Nat := 4 * field o 11 22 + field o 6 2

/-- The offset of a channel's line, which inverts the two. -/
def stackOffset (c line : Nat) : Nat :=
  let hi := line / 4 * 2048
  hi + 256 * (c ^^^ field hi 11 3 ^^^ field hi 14 3 ^^^ field hi 17 3) + 64 * (line % 4)

/-- The largest accesses of one command that make up an access of `n` bytes: the first line's address and the lines of each aligned 256-byte run. -/
def stackRuns (a n : Nat) : List (Nat × Nat) :=
  if n = 0 then []
  else (List.range (ceilDiv (a % 256 + n) 256)).map (fun i =>
    let lo := max a (256 * (a / 256 + i))
    let hi := min (a + n) (256 * (a / 256 + i + 1))
    (lo / 64 * 64, ceilDiv hi 64 - lo / 64))

/-- WMASK of the line at address `l` under a write of `n` bytes at `a`: its 8-byte words that the write touches (R273). -/
def wmaskOf (a n l : Nat) : Nat :=
  (List.range 8).foldl (fun m w => if a < l + 8 * w + 8 ∧ l + 8 * w < a + n then m + 2 ^ w else m) 0

/-! ## Slots (R273) -/

/-- Eight steps of the CRC-16 of polynomial 0x1021, most significant bit first. -/
def crc16Bits : Nat → Nat → Nat
  | 0, c => c
  | n + 1, c => crc16Bits n ((if c.testBit 15 then (2 * c) ^^^ 0x1021 else 2 * c) % 2 ^ 16)

/-- The CRC-16 of a slot's bytes (R273) and of a UART frame (R318): polynomial 0x1021, initial value 0xFFFF. PRESUMED (log 7). -/
def crc16 (bs : List Byte) : Nat := bs.foldl (fun c b => crc16Bits 8 (c ^^^ (b.toNat * 256))) 0xFFFF

/-- The command word, CS bits 32-63: TYPE, CHANNEL, LINE, COUNT_M1 and odd parity. -/
def StackCmd.word (c : StackCmd) : Nat :=
  let w := (if c.write then 2 else 1) + 4 * c.chan + 32 * (c.line % 2 ^ 24) + 2 ^ 29 * ((c.lines - 1) % 4)
  w + 2 ^ 31 * ((1 + ((List.range 31).filter (fun i => w.testBit i)).length) % 2)

/-- CS bits 0-31 of the device-driven slot of a write's first line: the CRC-16 of data and command, and WMASK; zero for a read. -/
def StackCmd.check (c : StackCmd) : Nat :=
  match c.data with
  | (bs, m) :: _ => crc16 (bs ++ leBytes 4 c.word) + 2 ^ 16 * m
  | [] => 0

/-- Fields of the check word of a stack-driven slot: CE, UE, WR_NACK and WR_SEQ. -/
def slotCe (r : StackRx) : Bool := r.check.testBit 16
def slotUe (r : StackRx) : Bool := r.check.testBit 17
def slotNack (r : StackRx) : Bool := r.check.testBit 18
def slotSeq (r : StackRx) : Nat := field r.check 19 6

/-- Whether the CRC of a stack-driven slot is right; without data the field is zero. -/
def slotCrcOk (r : StackRx) : Bool :=
  r.check % 2 ^ 16 == (match r.data with | some bs => crc16 bs | none => 0)

/-! ## Links -/

/-- The bit of a link. -/
def linkBit (n : Nat) : BitVec 9 := BitVec.ofNat 9 (2 ^ n)

/-- The lowest link of a set. -/
def lowLink (b : BitVec 9) : BitVec 9 :=
  match (List.range 9).find? (fun i => b.getLsbD i) with
  | some i => linkBit i
  | none => 0

/-- Links in a set. -/
def links (b : BitVec 9) : Nat := ((List.range 9).filter (fun i => b.getLsbD i)).length

/-- The link that takes the next command: the one after the last in rotation (R275). -/
def Stack.nextLink (k : Stack) : Option Nat := ((List.range 9).map (fun i => (k.turn + 1 + i) % 9)).find? (fun l => k.rotation.getLsbD l)

/-- Whether a link takes a command: 256 reads may be outstanding on it (R275), and its replay buffer holds 64 written lines (R277). -/
def Stack.room (k : Stack) (l : Nat) (c : StackCmd) : Bool :=
  if c.write then decide (((k.cmds.filter (fun x => x.link == l && x.write)).map StackCmd.lines).foldl (· + ·) c.lines ≤ 64)
  else decide ((k.cmds.filter (fun x => x.link == l && !x.write)).length < 256)

/-- A command sent on a link: the link drives its CS word, and each written line takes the next write sequence number, mod 64 (R273, R274). -/
def Stack.assign (k : Stack) (l : Nat) (c : StackCmd) : Stack :=
  let n := look 0 k.wcount l
  let c := { c with link := l, seq := n }
  { k with
    cmds := k.cmds ++ [c], turn := l
    wcount := if c.write then put 0 k.wcount l ((n + c.lines) % 64) else k.wcount
    driven := put 0 k.driven l (c.check + 2 ^ 32 * c.word) }

/-- Commands that wait go to the links in rotation, in order, while the link whose turn it is has room. -/
def Stack.pump : Nat → Stack → Stack
  | 0, k => k
  | n + 1, k =>
    match k.queued, k.nextLink with
    | c :: cs, some l => if k.room l c then Stack.pump n (({ k with queued := cs } : Stack).assign l c) else k
    | _, _ => k

/-- A command handed to the controller. -/
def Stack.give (k : Stack) (c : StackCmd) : Stack := ({ k with queued := k.queued ++ [c] } : Stack).pump (k.queued.length + 1)

/-- Accesses of links that are out of rotation reissued on the others, in their original order (R278). -/
def Stack.reissue (k : Stack) : Stack :=
  let gone := k.cmds.filter (fun c => !k.rotation.getLsbD c.link)
  let again := gone.map (fun c => { c with got := 0, fails := 0 })
  ({ k with cmds := k.cmds.filter (fun c => k.rotation.getLsbD c.link), queued := again ++ k.queued } : Stack).pump (again.length + k.queued.length)

/-- Whether a write of a line awaits completion: the line is read from the replay buffer and not from the stack (R276). -/
def Stack.holdsLine (k : Stack) (ch line : Nat) : Bool :=
  (k.cmds ++ k.queued).any (fun c => c.write && c.chan == ch && decide (c.line ≤ line) && decide (line < c.line + c.lines))

/-- A memory stack. -/
def State.stack (s : State) (n : Nat) : Stack := s.memStacks.toList.getD n Stack.reset

/-- A stack changed. -/
def State.onStack (s : State) (n : Nat) (f : Stack → Stack) : State :=
  if h : n < 8 then { s with memStacks := s.memStacks.set n (f s.memStacks[n]) } else s

/-- A read command of the lines of a run that no write in the replay buffer holds; line by line where one does. -/
def Stack.giveRead (k : Stack) (o lines : Nat) : Stack :=
  let ch := stackChannel o
  let l := stackLine o
  let held := (List.range lines).filter (fun i => k.holdsLine ch (l + i))
  if held.isEmpty then k.give ⟨0, false, ch, l, lines, [], 0, 0, 0⟩
  else ((List.range lines).filter (fun i => !held.contains i)).foldl (fun k i => k.give ⟨0, false, ch, l + i, 1, [], 0, 0, 0⟩) k

/-- The commands of a read of `n` bytes of stack memory (R270, R275). -/
def State.stackReadCmds (s : State) (a n : Nat) : State :=
  (stackRuns a n).foldl (fun s r => s.onStack (r.1 / 2 ^ 33) (fun k => k.giveRead (r.1 % 2 ^ 33) r.2)) s

/-- The commands of a write of `n` bytes of stack memory, with the lines as they then stand. -/
def State.stackWriteCmds (s : State) (a n : Nat) : State :=
  (stackRuns a n).foldl (fun s r =>
    let ls := (List.range r.2).map (fun i => (lookAll (0 : Byte) s.mem (r.1 + 64 * i) 64, wmaskOf a n (r.1 + 64 * i)))
    s.onStack (r.1 / 2 ^ 33) (fun k => k.give ⟨0, true, stackChannel (r.1 % 2 ^ 33), stackLine (r.1 % 2 ^ 33), r.2, ls, 0, 0, 0⟩)) s

end Sys2Proof.Machine
end

