-- ==== Sys2Proof/Machine/Memory.lean ====
section
/-! DEFINITION. Machine/Memory.lean: stack memory, the page table, the window SRAM, and the fault path (R142-R151, R269).

Stack memory is a table of bytes by physical address, `stack × 2^33 + offset`; an unlisted byte reads as zero.
The window SRAM is a table of bytes by window page × 4,096 + offset. -/

namespace Sys2Proof.Machine

open Sys2Proof

/-- The canonical form of a byte memory: addresses strictly rising, no byte equal to the 0 that an unlisted address reads as. DESIGN CHOICE (log 11). -/
def Memory.wf (m : List Host.Cell) : Bool := canon (0 : Byte) m

/-! ## The page table (R143, R144) -/

/-- A page-table entry. -/
def State.pte (s : State) (vp : Nat) : Nat := (look (0 : DWord) s.pages vp).toNat

def pteValid (e : Nat) : Bool := e.testBit 0
def pteLarge (e : Nat) : Bool := e.testBit 1
def pteReadOnly (e : Nat) : Bool := e.testBit 2
def pteLazy (e : Nat) : Bool := e.testBit 3
def pteRetain (e : Nat) : Bool := e.testBit 4
def pteFill (e : Nat) : Nat := field e 8 2
def ptePage (e : Nat) : Nat := field e 12 24
def pteDevice (e : Nat) : Nat := field e 36 10

/-- The page that an address lies in, a LARGE page as a whole (R144): the key of its faults and fills. -/
def State.pageKey (s : State) (vp : Nat) : Nat := if pteLarge (s.pte vp) then vp / 512 * 512 else vp

/-- A translation: a physical address, or a cause of R146 (1 LAZY, 2 UNMAPPED, 3 WRITE_PROTECT). -/
inductive Xlate where
  | ok (phys : Nat)
  | fault (cause : Nat)
  deriving DecidableEq, Repr

/-- The translation of a virtual address for a read or a write (R143, R144, R146). -/
def State.translate (s : State) (va : Nat) (write : Bool) : Xlate :=
  if 2 ^ 36 ≤ va then .fault 2
  else
    let e := s.pte (va / 4096)
    if !pteValid e && !pteLazy e then .fault 2
    else if !pteValid e then .fault 1
    else if write && pteReadOnly e then .fault 3
    else
      let dev := if pteLarge e then ptePage e / 512 * 512 * 4096 + va % 2 ^ 21 else ptePage e * 4096 + va % 4096
      .ok (s.physical dev)

/-- Bytes at a virtual address where every page is valid, zero where it is not; the Bool says whether any byte could not be
read or lay in an uncorrectable line. -/
def State.virtBytes (s : State) (va n : Nat) : List Byte × Bool :=
  let rs := (List.range n).map (fun i =>
    match s.translate (va + i) false with
    | .ok p => (look (0 : Byte) s.mem p, look false s.memBad (p / 64))
    | .fault _ => ((0 : Byte), true))
  (rs.map (·.1), rs.any (·.2))

/-- The parts of a run of bytes that lie in one page each, with the address of each. -/
def pageCuts : Nat → Nat → List Byte → List (Nat × List Byte)
  | 0, _, _ => []
  | n + 1, va, bs =>
    if bs.isEmpty then []
    else
      let k := 4096 - va % 4096
      (va, bs.take k) :: pageCuts n (va + k) (bs.drop k)

/-- A page-table entry changed. -/
def State.setPte (s : State) (vp e : Nat) : State := { s with pages := put (0 : DWord) s.pages vp (BitVec.ofNat 64 e) }

/-- VALID set on a page, on all 512 entries of a LARGE page (R144). -/
def State.validate (s : State) (key : Nat) : State :=
  if pteLarge (s.pte key) then
    (List.range 512).foldl (fun s i => s.setPte (key / 512 * 512 + i) (setField (s.pte (key / 512 * 512 + i)) 0 1 1)) s
  else s.setPte key (setField (s.pte key) 0 1 1)

/-- 4 KiB pages of the page that a key names. -/
def State.pageParts (s : State) (key : Nat) : Nat := if pteLarge (s.pte key) then 512 else 1

/-- The physical address of part `i` of the page that a key names. -/
def State.partPhys (s : State) (key i : Nat) : Nat :=
  let e := s.pte key
  s.physical ((if pteLarge e then ptePage e / 512 * 512 else ptePage e) * 4096 + i * 4096)

/-! ## Accesses of units to stack memory (R272, R275, R280) -/

/-- MEM_STK_UE of the stack at a physical address. -/
def cStkUe (phys : Nat) : Nat := bank (phys / 2 ^ 33) (blkMem + 0x514)

/-- `n` bytes read for a unit: the commands go to the stack's links, and an uncorrectable line counts and makes what is read POISONED. -/
def State.stackRead (s : State) (p n : Nat) : List Byte × Bool × State :=
  let bad := s.memPoisoned p n
  (s.memBytes p n, bad, (if bad then s.count (cStkUe p) 1 else s).stackReadCmds p n)

/-- Bytes written for a unit. -/
def State.stackWrite (s : State) (p : Nat) (bs : List Byte) : State := (s.memWrite p bs).stackWriteCmds p bs.length

/-- The parts of a range that lie in one page each. -/
def pageSpans : Nat → Nat → Nat → List (Nat × Nat)
  | 0, _, _ => []
  | n + 1, va, len =>
    if len = 0 then []
    else
      let k := min len (4096 - va % 4096)
      (va, k) :: pageSpans n (va + k) (len - k)

/-- Bytes read at a virtual address for a unit, page by page, zero where a page is not valid; the Bool says whether any byte could not be read or lay in an
uncorrectable line. -/
def State.virtRead (s : State) (va n : Nat) : List Byte × Bool × State :=
  (pageSpans (n + 1) va n).foldl (fun r x =>
    match r.2.2.translate x.1 false with
    | .ok p => let y := r.2.2.stackRead p x.2; (r.1 ++ y.1, r.2.1 || y.2.1, y.2.2)
    | .fault _ => (r.1 ++ List.replicate x.2 0, true, r.2.2)) ([], false, s)

/-- Bytes written at a virtual address, page by page, where the page takes writes, discarded where it does not; answers whether any was discarded. -/
def State.virtWrite (s : State) (va : Nat) (bs : List Byte) : State × Bool :=
  (pageCuts (bs.length + 1) va bs).foldl (fun r x =>
    match r.1.translate x.1 true with
    | .ok p => (r.1.stackWrite p x.2, r.2)
    | .fault _ => (r.1, true)) (s, false)

/-! ## Faults (R146-R150) -/

def rPageFault : Nat := blkMem + 0x41C
def rXferIllegal : Nat := blkMem + 0x420
def rXferBadDesc : Nat := blkMem + 0x424

/-- What a fault does at the stopped element: it waits for a fill, it waits for a free record, or it is refused. -/
inductive FaultEnd where
  | waits
  | noRecord
  | refused
  deriving DecidableEq, Repr

/-- A record written (R146): the next sequence number, kept as the latest; PAGE_FAULT counts. DESIGN CHOICE (log 35). -/
def State.writeRecord (s : State) (r : FaultRec) (openIt : Bool) : State :=
  let n := (s.faults.seq + 1) % 2 ^ 32
  let r := { r with sequence := n }
  ({ s with faults := { s.faults with
      seq := n, last := some r, records := if openIt then s.faults.records ++ [r] else s.faults.records } }).count rPageFault 1

/-- The fill that a LAZY entry's FILL asks for (R147): 1 zero, 2 neighbour, 3 host, 4 refused. -/
def fillState (e : Nat) : Nat := pteFill e + 1

/-- The request payload of an access to a neighbour's memory: address, length, direction, data. DESIGN CHOICE (log 36). -/
def memReqPayload (addr len : Nat) (write : Bool) (data : List Byte) : List Byte :=
  leBytes 8 addr ++ leBytes 2 len ++ leBytes 1 (b2n write) ++ data

/-- The pages of a neighbour fill asked for, 4 KiB by 4 KiB, at the same virtual addresses of FILL_DEVICE (R147). DESIGN CHOICE (log 36). -/
def State.askFill (s : State) (key : Nat) : State :=
  (List.range (s.pageParts key)).foldl (fun s i =>
    let p := memReqPayload (4096 * (key + i)) 4096 false []
    s.sendPacket ⟨7, 4, 0, pteDevice (s.pte key), s.device, 0xFFFF, p.length, 0, p⟩ none) s

/-- A fill started unless one is in progress for the page (R149); a neighbour fill asks FILL_DEVICE for the page (R147). DESIGN CHOICE (log 36). -/
def State.startFill (s : State) (key kind : Nat) : State :=
  if s.faults.fills.any (fun f => f.key == key) then s
  else
    let s := { s with faults := { s.faults with fills := s.faults.fills ++ [⟨key, kind, 0⟩] } }
    if kind = 2 then s.askFill key else s

/-- A fault raised at an element (R146-R148): refused faults are recorded, counted and closed at once; a LAZY fault takes
one of 32 records and its page is filled once, or waits for a free record. -/
def State.fault (s : State) (h : Holder) (va cause dir ch : Nat) (coord : List Nat) : FaultEnd × State :=
  let vp := va / 4096 % 2 ^ 24
  let li := match s.currentList h.queue with | some l => l.index | none => 0
  let pos := match s.prog h with | some e => e.pos | none => 0
  let e := s.pte vp
  let st := if cause = 1 then fillState e else 4
  let r : FaultRec := ⟨vp, queueEndpoint s.device h.queue, ch, cause, st, dir, li * 4096 + min pos 4095, coord, 0, some h⟩
  if 32 ≤ s.faults.records.length then
    (.noRecord, { s with faults := { s.faults with waiting := s.faults.waiting ++ [r] } })
  else if st = 4 then (.refused, (s.writeRecord r false).count rXferIllegal 1)
  else (.waits, (s.writeRecord r true).startFill (s.pageKey vp) st)

/-- A channel goes STALLED for one more waiting transfer (R146). -/
def State.stallChan (s : State) (i : Nat) : State :=
  s.onChan i (fun c => { c with stalls := c.stalls + 1, ent := { c.ent with state := 2 } })

/-- One waiting transfer fewer; the last takes STALLED away. -/
def State.unstallChan (s : State) (i : Nat) : State :=
  s.onChan i (fun c => { c with
    stalls := c.stalls - 1
    ent := { c.ent with state := if c.stalls ≤ 1 && c.ent.state == 2 then 1 else c.ent.state } })

/-- The bytes of a fault record (chapter 7, *Fault record*). -/
def FaultRec.bytes (r : FaultRec) : List Byte :=
  leBytes 4 (r.page % 2 ^ 24) ++ leBytes 4 r.endpoint ++ leBytes 2 r.channel ++ leBytes 1 r.cause ++
  leBytes 1 (r.state % 16 + 16 * r.dir) ++ leBytes 4 r.command ++
  ((List.range 5).flatMap (fun i => leBytes 2 (r.coord.getD i 0))) ++ leBytes 2 0 ++ leBytes 4 r.sequence

end Sys2Proof.Machine
end

