-- ==== Sys2Proof/Machine/Transfer.lean ====
section
/-! DEFINITION. Machine/Transfer.lean: XFER, page policy and touch, and the resumption of stopped commands
(R134-R151, R380). -/

namespace Sys2Proof.Machine

open Sys2Proof

/-! ## The descriptor (R136-R138) -/

/-- An unroll record at an offset of a descriptor. -/
def parseUnroll (bs : List Byte) (off : Nat) (on : Bool) : Unroll :=
  { on := on, outDim := leAt bs off 1, tapDim := leAt bs (off + 1) 1, stride := leAt bs (off + 2) 1,
    dil := leAt bs (off + 3) 1, padLo := leAt bs (off + 4) 2, extM1 := leAt bs (off + 6) 2,
    axis := signed 32 (leAt bs (off + 8) 4) }

/-- The 128-byte transfer descriptor. DESIGN CHOICE (log 33). -/
def parseDesc (bs : List Byte) : XDesc :=
  let fl := leAt bs 0x17 1
  let sk := leAt bs 0x10 1
  let dk := leAt bs 0x11 1
  let sd := leAt bs 0x12 2
  let dd := leAt bs 0x14 2
  { srcAddr := leAt bs 0 8, dstAddr := leAt bs 8 8, srcKind := sk, dstKind := dk, srcDevice := sd, dstDevice := dd,
    elemLog2 := leAt bs 0x16 1, padMode := field fl 2 2,
    countM1 := (List.range 5).map (fun i => leAt bs (0x18 + 2 * i) 2),
    srcStride := (List.range 5).map (fun i => signed 32 (leAt bs (0x24 + 4 * i) 4)),
    dstStride := (List.range 5).map (fun i => signed 32 (leAt bs (0x38 + 4 * i) 4)),
    unrollA := parseUnroll bs 0x4C (fl.testBit 0), unrollB := parseUnroll bs 0x58 (fl.testBit 1),
    padValue := leAt bs 0x64 4,
    reserved := !zeroAt bs 0x22 2 || !zeroAt bs 0x68 24 || decide (16 ≤ fl) || decide (1024 ≤ sd) || decide (1024 ≤ dd) ||
      (sk != 2 && sd != 0) || (dk != 2 && dd != 0) }

/-- The element size in bytes. -/
def XDesc.size (d : XDesc) : Nat := 2 ^ d.elemLog2

/-- The number of elements. -/
def XDesc.count (d : XDesc) : Nat := d.countM1.foldl (fun n c => n * (c + 1)) 1

/-- The payload in bytes. -/
def XDesc.payload (d : XDesc) : Nat := d.count * d.size

/-- The coordinates of element `n`, dimension 0 varying fastest (R136). -/
def coordsOf : List Nat → Nat → List Nat
  | [], _ => []
  | m :: ms, n => n % (m + 1) :: coordsOf ms (n / (m + 1))

/-- `Σ ci × stride i`. -/
def dot : List Nat → List Int → Int
  | c :: cs, s :: ss => (c : Int) * s + dot cs ss
  | _, _ => 0

/-- fold of R138. -/
def foldIdx (x : Int) (n : Nat) : Nat :=
  if n = 1 then 0
  else
    let p := 2 * (n - 1)
    let r := (x % (p : Int)).toNat
    if r < n then r else p - r

/-- Where a source element lies: at a 64-bit address, or a pad element (R138). -/
inductive Src where
  | addr (a : Nat)
  | pad
  deriving DecidableEq, Repr

/-- What one unroll record adds to a source address; `none` is a pad element. -/
def Unroll.add (u : Unroll) (mode : Nat) (c : List Nat) : Option Int :=
  if !u.on then some 0
  else
    let x : Int := (c.getD u.outDim 0 : Int) * u.stride + (c.getD u.tapDim 0 : Int) * u.dil - u.padLo
    if 0 ≤ x ∧ x ≤ u.extM1 then some (x * u.axis)
    else if mode < 2 then none
    else if mode = 2 then some (if x < 0 then 0 else (u.extM1 : Int) * u.axis)
    else some ((foldIdx x (u.extM1 + 1) : Int) * u.axis)

/-- The source of element `n`. -/
def XDesc.src (d : XDesc) (c : List Nat) : Src :=
  match d.unrollA.add d.padMode c, d.unrollB.add d.padMode c with
  | some a, some b => .addr (unsigned 64 ((d.srcAddr : Int) + dot c d.srcStride + a + b))
  | _, _ => .pad

/-- The destination of element `n`. -/
def XDesc.dst (d : XDesc) (c : List Nat) : Nat := unsigned 64 ((d.dstAddr : Int) + dot c d.dstStride)

/-- The bytes of a pad element. DESIGN CHOICE (log 34). -/
def XDesc.padBytes (d : XDesc) : List Byte :=
  let v := if d.padMode = 1 then d.padValue else 0
  if d.elemLog2 ≤ 2 then leBytes d.size v
  else (List.range (d.size / 4)).flatMap (fun _ => leBytes 4 v)

/-- Whether an unroll record breaks R138. -/
def Unroll.bad (u : Unroll) (srcStride : List Int) : Bool :=
  u.on && (decide (4 < u.outDim) || decide (4 < u.tapDim) || u.outDim == u.tapDim || u.stride == 0 || u.dil == 0 ||
    srcStride.getD u.outDim 0 != 0 || srcStride.getD u.tapDim 0 != 0)

/-- Whether two records share a dimension. -/
def unrollsMeet (a b : Unroll) : Bool :=
  a.on && b.on && (a.outDim == b.outDim || a.outDim == b.tapDim || a.tapDim == b.outDim || a.tapDim == b.tapDim)

/-- The resource type of a window page claim. -/
def resWindow : Nat := 0x07

/-- Whether the window map gives a page HOST_WRITE. -/
def State.hostWrite (s : State) (page : Nat) : Bool :=
  match s.stream with
  | some st => st.winMap.any (fun w => w.window == page && w.hostWrite)
  | none => false

/-- Whether an address of a kind may serve as an element of a descriptor (R137). -/
def State.badAddr (s : State) (u : UnitId) (kind a : Nat) (source : Bool) : Bool :=
  match kind with
  | 0 => !s.inPart (coreOf u) (a / 64)
  | 3 => decide (8192 ≤ a / 4096) || !s.claimed resWindow (a / 4096) || (source && !s.hostWrite (a / 4096))
  | _ => false

/-- Whether a descriptor is invalid on a channel with tokens of `tb` bytes, in a queue of unit `u` (R137). DESIGN CHOICE (log 33). -/
def State.descBad (s : State) (u : UnitId) (tb : Nat) (d : XDesc) : Bool :=
  let es : Int := d.size
  let mis (x : Int) : Bool := x % es != 0
  let isEe := match u with | .ee _ => true | _ => false
  d.reserved || decide (6 < d.elemLog2) || decide (4 < d.srcKind) || decide (4 < d.dstKind) ||
  (decide (d.srcKind < 4) && (mis d.srcAddr || d.srcStride.any mis ||
    (d.unrollA.on && mis d.unrollA.axis) || (d.unrollB.on && mis d.unrollB.axis))) ||
  (decide (d.dstKind < 4) && (mis d.dstAddr || d.dstStride.any mis)) ||
  (d.srcKind == 4 && (d.srcAddr != 0 || d.srcStride.any (· != 0))) ||
  (d.dstKind == 4 && (d.dstAddr != 0 || d.dstStride.any (· != 0))) ||
  (isEe && (d.srcKind == 0 || d.dstKind == 0)) ||
  (d.srcKind == 2 && !s.directLink d.srcDevice) || (d.dstKind == 2 && !s.directLink d.dstDevice) ||
  (d.dstKind == 0 && decide (d.elemLog2 < 2) && d.dstStride.getD 0 0 != es) ||
  d.unrollA.bad d.srcStride || d.unrollB.bad d.srcStride || unrollsMeet d.unrollA d.unrollB ||
  decide (d.payload % tb ≠ 0) || decide (2 ^ 40 < d.payload) ||
  ((d.srcKind == 0 || d.srcKind == 3) && (List.range d.count).any (fun n =>
    match d.src (coordsOf d.countM1 n) with | .addr a => s.badAddr u d.srcKind a true | .pad => false)) ||
  ((d.dstKind == 0 || d.dstKind == 3) && (List.range d.count).any (fun n =>
    s.badAddr u d.dstKind (d.dst (coordsOf d.countM1 n)) false))

/-- Tokens of a transfer: `⌈payload / TOKEN_BYTES⌉` (R137). -/
def XDesc.tokens (d : XDesc) (tb : Nat) : Nat := if tb = 0 then 0 else ceilDiv d.payload tb

/-! ## Running transfers -/

/-- The engine state of a command in progress. -/
def State.mover (s : State) (h : Holder) : Mover :=
  match s.prog h with | some e => e.mover | none => Mover.idle

/-- The engine state set. -/
def State.setMover (s : State) (h : Holder) (m : Mover) : State := s.onProg h (fun e => { e with mover := m })

/-- Whether a command in progress is a transfer, whose channel goes STALLED while it waits for a fault. -/
def State.isXfer (s : State) (h : Holder) : Bool :=
  match s.prog h with
  | some e => (match e.cmd.body with | .xfer _ => true | _ => false)
  | none => false

/-- A command waits for a fault: a transfer's channel goes STALLED (R146). -/
def State.park (s : State) (h : Holder) (ch : Nat) (w : Stall) : State :=
  let s1 := s.setMover h { s.mover h with stall := w }
  if s.isXfer h then s1.stallChan ch else s1

/-- A command that waited for a fault goes on. -/
def State.unpark (s : State) (h : Holder) (ch : Nat) : State :=
  let s1 := s.setMover h { s.mover h with stall := .none }
  if s.isXfer h then s1.unstallChan ch else s1

/-- The outcome of an access that needs a translation: data or progress, or the command has stopped. -/
inductive Access where
  | ok
  | refused
  | stopped
  deriving DecidableEq, Repr

/-- Whether a page has been refused to a command: it stays refused to it (R148). -/
def State.refusedHere (s : State) (h : Holder) (va dir : Nat) : Bool := (s.mover h).refused.contains (2 * s.pageKey (va / 4096 % 2 ^ 24) + dir)

/-- The mark of a neighbour's page that has been refused to a command, apart from those of this device's pages. -/
def remoteMark (dev va dir : Nat) : Nat := 2 ^ 25 * (1 + dev) + 2 * (va / 4096 % 2 ^ 24) + dir

/-- A fault at an element, or a page already refused to this command (R146, R148). -/
def State.meetFault (s : State) (h : Holder) (ch va cause dir : Nat) (coord : List Nat) : Access × State :=
  let vp := va / 4096 % 2 ^ 24
  let key := s.pageKey vp
  let m := s.mover h
  if m.refused.contains (2 * key + dir) then (.refused, s)
  else
    match s.fault h va cause dir ch coord with
    | (.waits, s1) => (.stopped, s1.park h ch (.fault key))
    | (.noRecord, s1) => (.stopped, s1.park h ch (.record vp))
    | (.refused, s1) =>
      let more := if cause = 3 then [2 * key + dir] else [2 * key, 2 * key + 1]
      (.refused, s1.setMover h { m with refused := m.refused ++ more })

/-- A virtual read of `n` bytes in one page for a command: its bytes, POISONED, or a stop. -/
def State.readVirt (s : State) (h : Holder) (ch va n : Nat) (coord : List Nat) : Access × List Byte × Bool × State :=
  if s.refusedHere h va 0 then (.refused, List.replicate n 0, true, s) else
  match s.translate va false with
  | .ok p => (.ok, s.stackRead p n)
  | .fault c =>
    match s.meetFault h ch va c 0 coord with
    | (.refused, s1) => (.refused, List.replicate n 0, true, s1)
    | (a, s1) => (a, [], false, s1)

/-- The writes of a command to one line of stack memory make one write of the line: with all its bytes written it is good again (R280). DESIGN CHOICE (log 77). -/
def State.coverLine (s : State) (h : Holder) (p n : Nat) : State :=
  let m := s.mover h
  let own := if m.cover.1 = p / 64 then m.cover.2 else 0
  let mask := (own ||| (2 ^ n - 1) <<< (p % 64)) % 2 ^ 64
  let s := s.setMover h { m with cover := (p / 64, mask) }
  if mask = fullMask then { s with memBad := put false s.memBad (p / 64) false } else s

/-- A virtual write of bytes in one page for a command; a refused write is discarded. -/
def State.writeVirt (s : State) (h : Holder) (ch va : Nat) (bs : List Byte) (coord : List Nat) : Access × State :=
  if s.refusedHere h va 1 then (.refused, s) else
  match s.translate va true with
  | .ok p => (.ok, (s.stackWrite p bs).coverLine h p bs.length)
  | .fault c => s.meetFault h ch va c 1 coord

/-- An access sent to a directly linked neighbour; the command waits for its answer, and its channel reads STALLED meanwhile (R140, R142). DESIGN CHOICE (log 36). -/
def State.askRemote (s : State) (h : Holder) (ch dev addr len : Nat) (write : Bool) (data : List Byte) : State :=
  let s := s.park h ch .remote
  let s := { s with remotes := s.remotes ++ [RemoteReq.mk h dev write addr len] }
  let p := memReqPayload addr len write data
  s.sendPacket ⟨7, 4, 0, dev, s.device, ch, p.length, 0, p⟩ none

/-- Bytes taken from an engine's output buffer, with the marks of the runs they come from. -/
def takeOut : Nat → List OutRun → List Byte × Bool × Bool × List OutRun
  | _, [] => ([], false, false, [])
  | n, r :: rs =>
    if n = 0 then ([], false, false, r :: rs)
    else if n < r.data.length then (r.data.take n, r.poisoned, r.flagged, { r with data := r.data.drop n } :: rs)
    else
      let x := takeOut (n - r.data.length) rs
      (r.data ++ x.1, r.poisoned || x.2.1, r.flagged || x.2.2.1, x.2.2.2)

/-- Bytes taken from the tokens of a channel's buffer, with their marks. -/
def takeInbox : Nat → List Token → List Byte × Bool × Bool × List Token
  | _, [] => ([], false, false, [])
  | n, t :: ts =>
    if n = 0 then ([], false, false, t :: ts)
    else if n < t.data.length then
      (t.data.take n, t.marks.poisoned, t.marks.flagged, { t with data := t.data.drop n } :: ts)
    else
      let x := takeInbox (n - t.data.length) ts
      (t.data ++ x.1, t.marks.poisoned || x.2.1, t.marks.flagged || x.2.2.1, x.2.2.2)

/-- `n` bytes of the channel's own buffer in this unit (SRC_KIND 4), zeros beyond its contents (R166). -/
def State.ownBuffer (s : State) (u : UnitId) (ch n : Nat) : List Byte × Bool × Bool × State :=
  let padTo (bs : List Byte) : List Byte := bs ++ List.replicate (n - bs.length) 0
  match u with
  | .ee k =>
    let x := takeOut n (s.pewter k).out
    (padTo x.1, x.2.1, x.2.2.1, s.onEe k (fun p => { p with out := x.2.2.2 }))
  | _ =>
    let x := takeInbox n (s.chan ch).inbox
    (padTo x.1, x.2.1, x.2.2.1, s.onChan ch (fun c => { c with inbox := x.2.2.2 }))

/-- LINK_ERR of a window page observed and cleared by a device read (R257). -/
def State.takeLinkErr (s : State) (page : Nat) : Bool × State :=
  (look false s.linkErr page, { s with linkErr := put false s.linkErr page false })

/-- The element at the engine's hand set, with marks added to the token in progress. -/
def State.gotElem (s : State) (h : Holder) (bs : List Byte) (poison flag : Bool) : State :=
  let m := s.mover h
  s.setMover h { m with held := some bs, poisoned := m.poisoned || poison, flagged := m.flagged || flag }

/-- The destination of an element claimed as its read is issued, where that is the scratchpad (R121, R141). -/
def State.claimElem (s : State) (h : Holder) (d : XDesc) (c : List Nat) : State :=
  if d.dstKind = 0 then
    let a := d.dst c
    s.claimLine (coreOf h.queue.unit) h (a / 64) (2 ^ d.size - 1 <<< (a % 64))
  else s

/-- The source element read into the engine; answers whether the engine goes on. A read of a scratchpad line with a pending mark waits (R121), and
elements of a neighbour's page that has been refused take zeros (R148). -/
def State.readElem (s : State) (h : Holder) (ch : Nat) (d : XDesc) (c : List Nat) : Bool × State :=
  match d.src c with
  | .pad => (true, s.gotElem h d.padBytes false false)
  | .addr a =>
    match d.srcKind with
    | 0 =>
      let k := coreOf h.queue.unit
      let l := a / 64
      if (s.cores[k].pendingLines h.queue).contains l then (false, s.setMover h { s.mover h with stall := .line }) else
      let s := s.claimElem h d c
      let mk := s.cores[k].marks [l]
      (true, (s.touchLines k [l]).gotElem h (s.cores[k].bytes a d.size) mk.1 mk.2)
    | 1 =>
      match (s.claimElem h d c).readVirt h ch a d.size c with
      | (.stopped, _, _, s1) => (false, s1)
      | (_, bs, bad, s1) => (true, s1.gotElem h bs bad false)
    | 2 =>
      if (s.mover h).refused.contains (remoteMark d.srcDevice a 0) then (true, s.gotElem h (List.replicate d.size 0) true false)
      else (false, (s.claimElem h d c).askRemote h ch d.srcDevice a d.size false [])
    | 3 =>
      let x := ((s.claimElem h d c).winCes a d.size).takeLinkErr (a / 4096)
      (true, x.2.gotElem h (s.winBytes a d.size) (decide (0 < s.winUes a d.size)) x.1)
    | _ =>
      let x := (s.claimElem h d c).ownBuffer h.queue.unit ch d.size
      (true, x.2.2.2.gotElem h x.1 x.2.1 x.2.2.1)

/-- The element in hand written into the command's own scratchpad: a DMA write that claims its lines (R121), and sets step
tags of whole lines on a channel of scale blocks, a line that the transfer writes again included (R99). -/
def State.writeLineElem (s : State) (h : Holder) (ch a : Nat) (bs : List Byte) (poison flag : Bool) : State :=
  let k := coreOf h.queue.unit
  let l := a / 64
  let w := byteWrite l (a % 64) bs poison flag
  let own := match s.cores[k].claims.find? (fun x => x.line == l && x.holder == h) with
    | some x => if x.got = fullMask then 0 else x.got
    | none => 0
  let c := s.chan ch
  let whole := (own ||| w.mask) == fullMask
  let tagged := whole && c.ent.elemFormat == 0x0D
  let w := if tagged && s.inKind k 6 l then { w with tag := some (c.lineNo % c.ent.height % 16) } else w
  let s := s.writeLines k (some h) false [w]
  if tagged then s.onChan ch (fun x => { x with lineNo := x.lineNo + 1 }) else s

/-- The element in hand is done: its bytes join the token. -/
def State.putElem (s : State) (h : Holder) (bs : List Byte) (poison : Bool) : State :=
  let m := s.mover h
  s.setMover h { m with held := none, buf := m.buf ++ bs, next := m.next + 1, poisoned := m.poisoned || poison }

/-- The element in hand written to its destination; answers whether the engine goes on. -/
def State.writeElem (s : State) (h : Holder) (ch : Nat) (d : XDesc) (c : List Nat) (bs : List Byte) : Bool × State :=
  let a := d.dst c
  let m := s.mover h
  match d.dstKind with
  | 0 => (true, (s.writeLineElem h ch a bs m.poisoned m.flagged).putElem h bs false)
  | 1 =>
    match s.writeVirt h ch a bs c with
    | (.stopped, s1) => (false, s1)
    | (.refused, s1) => (true, s1.putElem h bs true)
    | (.ok, s1) => (true, s1.putElem h bs false)
  | 2 =>
    if m.refused.contains (remoteMark d.dstDevice a 1) then (true, s.putElem h bs true) else (false, s.askRemote h ch d.dstDevice a d.size true bs)
  | 3 => (true, (s.winWrite a bs).putElem h bs false)
  | _ => (true, s.putElem h bs false)

/-- Whether an earlier command of the queue still sends on the channel: tokens keep command order (R18). -/
def State.behind (s : State) (h : Holder) (ch : Nat) : Bool :=
  (s.queue h.queue).prog.any (fun e => decide (e.seq < h.seq) && !e.worked &&
    (match e.cmd.body with | .xfer o => o.channel == ch | .nWrite o => o.channel == ch | _ => false))

/-- A token of the command complete: sent with its marks, signalled under TOKEN_SIGNAL (R135). -/
def State.endToken (s : State) (h : Holder) (hdr : Header) (o : XferOps) (total : Nat) (m : Mover) : State :=
  let first := m.sent == 0 && o.xflags.testBit 0
  let lastT := m.sent + 1 == total && o.xflags.testBit 1
  let marks : Marks := ⟨first, lastT, false, m.flagged, m.poisoned, false⟩
  let s := s.setMover h { m with sent := m.sent + 1, spent := false, buf := [], flagged := m.descFlagged, poisoned := m.descPoisoned }
  let s := s.send o.channel marks none s.now m.buf m.buf (cShedDrop h.queue.unit)
  let s := s.noteMarks h.queue m.poisoned m.flagged
  if o.xflags.testBit 2 then
    let s := s.releaseCame h
    if hdr.signal then s.signal (signalTarget h.queue hdr) hdr.signalCtr else s
  else s

/-- A token of the command begun: a credit is spent before its first byte moves (R17, R141); FRAME_START restarts the count
of whole lines (R99). Invar takes no input while its inputs pause for a main-stream load (R48). Answers whether the engine goes on. -/
def State.startToken (s : State) (h : Holder) (o : XferOps) : Bool × State :=
  if s.behind h o.channel then (false, s)
  else if h.queue.unit == .invar && s.inv.paused then (false, s.setMover h { s.mover h with stall := .token })
  else if !(s.chan o.channel).canSend then
    (false, s.setMover h { s.mover h with stall := .credit o.channel })
  else
    let m := s.mover h
    let fs := m.sent == 0 && o.xflags.testBit 0
    let s := s.setMover h { m with spent := true, stall := .none }
    (true, s.onChan o.channel (fun c => let c := c.spend; if fs then { c with lineNo := 0 } else c))

/-- One step of a transfer: a token begins, an element is read, written, or a token ends; answers whether the engine goes on. -/
def State.xferStep (s : State) (h : Holder) (hdr : Header) (o : XferOps) (d : XDesc) : Bool × State :=
  let m := s.mover h
  let tb := (s.chan o.channel).ent.tokenBytes
  let total := d.tokens tb
  if total ≤ m.sent then (false, s.worked h)
  else if !m.spent then s.startToken h o
  else if m.bad then
    (true, s.endToken h hdr o total { m with buf := List.replicate tb 0, poisoned := true })
  else if tb ≤ m.buf.length then (true, s.endToken h hdr o total m)
  else
    let c := coordsOf d.countM1 m.next
    match m.held with
    | none => s.readElem h o.channel d c
    | some bs => s.writeElem h o.channel d c bs

/-- Steps of a transfer until it stops or its work is finished. -/
def State.xferLoop : Nat → State → Holder → Header → XferOps → XDesc → State
  | 0, s, _, _, _, _ => s
  | n + 1, s, h, hdr, o, d =>
    match s.xferStep h hdr o d with
    | (true, s1) => s1.xferLoop n h hdr o d
    | (false, s1) => s1

/-- Steps enough for a whole transfer: two for each element, two for each token, one to end. -/
def XDesc.fuel (d : XDesc) (tb : Nat) : Nat := 2 * d.count + 2 * d.tokens tb + 1

/-- A virtual read that may cross into the next page, which is translated in its turn (R134). -/
def State.readSpan (s : State) (h : Holder) (ch va n : Nat) : Access × List Byte × Bool × State :=
  let k := min n (4096 - va % 4096)
  match s.readVirt h ch va k [0, 0, 0, 0, 0] with
  | (.stopped, _, _, s1) => (.stopped, [], false, s1)
  | (_, bs, bad, s1) =>
    if k = n then (.ok, bs, bad, s1)
    else match s1.readVirt h ch (va + k) (n - k) [0, 0, 0, 0, 0] with
      | (.stopped, _, _, s2) => (.stopped, [], false, s2)
      | (_, cs, worse, s2) => (.ok, bs ++ cs, bad || worse, s2)

/-- Every line of a transfer's destination claimed at its start, in a queue other than LOAD (R121). -/
def State.claimDest (s : State) (h : Holder) (d : XDesc) : State :=
  if d.dstKind = 0 ∧ h.queue.port ≠ 0 then
    (List.range d.count).foldl (fun s n =>
      let a := d.dst (coordsOf d.countM1 n)
      s.claimLine (coreOf h.queue.unit) h (a / 64) (2 ^ d.size - 1 <<< (a % 64))) s
  else s

/-- A transfer goes on from where it stands: first its descriptor is copied (R134), then its elements move. Marks of the descriptor's lines go to every
token of the command (R123, R129). DESIGN CHOICE (log 33). -/
def State.runXfer (s : State) (h : Holder) (hdr : Header) (o : XferOps) : State :=
  let tb := (s.chan o.channel).ent.tokenBytes
  match (s.mover h).desc with
  | some d => s.xferLoop (d.fuel tb) h hdr o d
  | none =>
    let k := coreOf h.queue.unit
    let ls := if o.descKind = 0 then [o.descAddr / 64, o.descAddr / 64 + 1] else []
    if ls.any (s.cores[k].pendingLines h.queue).contains then s.setMover h { s.mover h with stall := .line } else
    let got : Access × List Byte × Bool × State :=
      if o.descKind = 0 then (.ok, s.cores[k].bytes o.descAddr 128, ls.any s.cores[k].poisoned, s.touchLines k ls)
      else s.readSpan h o.channel o.descAddr 128
    match got with
    | (.stopped, _, _, s1) => s1
    | (_, bs, poison, s1) =>
      let d := parseDesc bs
      let bad := s1.descBad h.queue.unit tb d
      let flag := ls.any s.cores[k].flags
      let s2 := s1.setMover h { s1.mover h with
        desc := some d, bad := bad, stall := .none, flagged := flag, poisoned := poison, descFlagged := flag, descPoisoned := poison }
      let s3 := if bad then s2.count rXferBadDesc 1 else s2.claimDest h d
      s3.xferLoop (d.fuel tb) h hdr o d

/-- XFER (R134-R138): the work of one command. -/
def xferWork (hdr : Header) (o : XferOps) (h : Holder) (s : State) : State := s.runXfer h hdr o

/-! ## Page policy and touch (R151) -/

/-- PGPOLICY: FILL and FILL_DEVICE of LAZY entries that are not yet valid. -/
def pgPolicyWork (o : PageOps) (h : Holder) (s : State) : State :=
  let fill := if o.fill = 1 ∧ s.directLink o.device = false then 3 else o.fill
  let s := (List.range o.pages).foldl (fun s i =>
    let e := s.pte (o.virtPage + i)
    if pteLazy e && !pteValid e then
      s.setPte (o.virtPage + i) (setField (setField e 8 2 fill) 36 10 (if fill = 1 then o.device else 0))
    else s) s
  s.worked h

/-- PGTOUCH: pages from `next` on, each resolved before the next is touched. -/
def State.touchLoop : Nat → State → Holder → PageOps → State
  | 0, s, h, _ => s.worked h
  | n + 1, s, h, o =>
    let m := s.mover h
    let va := (o.virtPage + m.next) * 4096
    let dir := o.fill % 2
    match s.translate va (dir == 1) with
    | .ok _ => (s.setMover h { m with next := m.next + 1 }).touchLoop n h o
    | .fault c =>
      match s.meetFault h 0xFFFF va c dir [0, 0, 0, 0, 0] with
      | (.stopped, s1) => s1
      | (_, s1) => (s1.setMover h { s1.mover h with next := m.next + 1 }).touchLoop n h o

/-- PGTOUCH goes on from where it stands. -/
def State.runTouch (s : State) (h : Holder) (o : PageOps) : State := s.touchLoop (o.pages - (s.mover h).next) h o

/-- PGTOUCH: the work of one command. -/
def pgTouchWork (o : PageOps) (h : Holder) (s : State) : State := s.runTouch h o

/-! ## TIME_READ to stack memory (R380) -/

/-- TIME_READ: eight bytes of the time counter to a scratchpad or to stack memory. -/
def State.runTimeRead (s : State) (h : Holder) (o : TimeReadOps) : State :=
  let bs := match (s.mover h).held with | some b => b | none => leBytes 8 s.now
  if o.kind = 0 then
    (s.writeLines (coreOf h.queue.unit) (some h) false [{ byteWrite (o.dest / 64) (o.dest % 64) bs false false with src := 3 }]).worked h
  else
    match (s.setMover h { s.mover h with held := some bs }).writeVirt h 0xFFFF o.dest bs [0, 0, 0, 0, 0] with
    | (.stopped, s1) => s1
    | (_, s1) => s1.worked h

end Sys2Proof.Machine
end

