-- ==== Sys2Proof/Machine/Array.lean ====
section
/-! DEFINITION. Machine/Array.lean: the matrix array, cell by cell, with group scales, escapes and step tags
(R75-R89, R94-R103). -/

namespace Sys2Proof.Machine

open Sys2Proof

/-- Element `e` of stored row `r` of an operand of `w`-bit elements (R76). -/
def Core.elem (c : Core) (base pitch w r e : Nat) : Nat := c.bitsAt (base + r * pitch) (w * e) w

/-- The lines that `rows` stored rows of `len` elements touch. -/
def rowLines (base pitch w rows len : Nat) : List Nat :=
  (List.range rows).flatMap (fun r => linesOf (base + r * pitch) (len * w))

/-! ## Bank conflicts (R115-R117) -/

/-- The extra handshakes of a set of lines (R116): in each bank group the largest number of its lines in one bank, less one. -/
def setExtra (ls : List Nat) : Nat :=
  (List.range 4).foldl (fun n g =>
    let bs := (ls.filter (fun l => groupOf l == g)).map bankOf
    n + (maxOf ((List.range 16).map (fun b => bs.count b)) - 1)) 0

/-- Sets of at most 16 taken in order. -/
def sixteens {α : Type} : Nat → List α → List (List α)
  | 0, _ => []
  | n + 1, xs => if xs.isEmpty then [] else xs.take 16 :: sixteens n (xs.drop 16)

/-- The extra handshakes of an array operand, read 16 stored rows at a time, line by line (R116, R117). DEDUCED (log 112). -/
def operandExtra (base pitch rows lines : Nat) : Nat :=
  (List.range lines).foldl (fun n i =>
    (sixteens (rows + 1) (List.range rows)).foldl (fun n rs => n + setExtra (rs.map (fun r => base + r * pitch + i))) n) 0

/-- The extra handshakes of lines that the vector unit takes in order, up to 16 at a time (R116, R117). DEDUCED (log 112). -/
def vectorExtra (ls : List Nat) : Nat := (sixteens (ls.length + 1) ls).foldl (fun n x => n + setExtra x) 0

/-! ## One cell (R85-R88) -/

/-- What one command asks of every cell: active rows and columns, reduction length and group length, formats, the operand codes
(`a i j k`, `b k j`), the positions of the reduction that contribute, scale codes by row or column and group (`none`: no scale),
and the side value of an escaped element (`none`: an ordinary code). -/
structure ArrayJob where
  m : Nat
  n : Nat
  k : Nat
  g : Nat
  fa : Fmt
  fb : Fmt
  accInt : Bool
  a : Nat → Nat → Nat → Nat
  b : Nat → Nat → Nat
  live : Nat → Bool
  rowScale : Nat → Nat → Option Nat
  colScale : Nat → Nat → Option Nat
  sideA : Nat → Nat → Option Val
  sideB : Nat → Nat → Option Val

/-- The special outcome of a group: none, an infinity, or NaN. -/
inductive Special where
  | none
  | inf (neg : Bool)
  | nan
  deriving DecidableEq, Repr

/-- merge_inf of R86: opposite signs give NaN. -/
def Special.merge (s : Special) (neg : Bool) : Special :=
  match s with
  | .none => .inf neg
  | .inf n => if n = neg then .inf n else .nan
  | .nan => .nan

/-- The sums of a group: ordinary products, products with an escaped A, with an escaped B, with both, and the special outcome. -/
structure GroupSum where
  p : Val
  ea : Val
  eb : Val
  ee : Val
  sp : Special

/-- One product added to a group (R85). -/
def GroupSum.step (x : GroupSum) (va vb : Val) (xa xb : Bool) : GroupSum :=
  let v := va.mul vb
  match v with
  | .nan => { x with sp := .nan }
  | .inf neg => { x with sp := x.sp.merge neg }
  | .fin _ _ _ =>
    if !xa && !xb then { x with p := x.p.add v }
    else if xa && !xb then { x with ea := x.ea.add v }
    else if xb && !xa then { x with eb := x.eb.add v }
    else { x with ee := x.ee.add v }

/-- The products `k0 ≤ k < k1` of a group of cell `(i, j)`. -/
def ArrayJob.sums (t : ArrayJob) (i j k0 k1 : Nat) : GroupSum :=
  (List.range (k1 - k0)).foldl (fun x d =>
    let k := k0 + d
    if t.live k then
      let sa := t.sideA i k
      let sb := t.sideB j k
      x.step (sa.getD (decode t.fa (t.a i j k))) (sb.getD (decode t.fb (t.b k j))) sa.isSome sb.isSome
    else x) ⟨Val.zero, Val.zero, Val.zero, Val.zero, .none⟩

/-- The value of a scale, 1 without one. -/
def scaleVal : Option Nat → Val
  | some c => decode .ue5m3 c
  | none => .fin false 1 0

/-- Whether an FP32 code is NaN. -/
def isNan32 (c : Nat) : Bool := (ofFp32 c).isNan

/-- One group of a narrow or integer cell: at most one rounding (R85, R86). -/
def ArrayJob.group (t : ArrayJob) (i j acc gi : Nat) : Nat :=
  let sr := t.rowScale i gi
  let sc := t.colScale j gi
  if sr = some 0 ∨ sc = some 0 then acc
  else
    let x := t.sums i j (gi * t.g) (min ((gi + 1) * t.g) t.k)
    match x.sp with
    | .nan => 0x7FC0_0000
    | .inf neg => fp32 ((ofFp32 acc).add (.inf neg))
    | .none =>
      if !(ofFp32 acc).isFin then acc
      else
        let r := scaleVal sr
        let c := scaleVal sc
        let v := (((x.p.mul r).mul c).add (x.ea.mul c)).add ((x.eb.mul r).add x.ee)
        fp32 ((ofFp32 acc).add v)

/-- One group under ACC_INT: an exact integer sum, then one saturating addition (R87). Answers the sum and the saturations. -/
def ArrayJob.groupInt (t : ArrayJob) (i j : Nat) (acc : Int × Nat) (gi : Nat) : Int × Nat :=
  let k0 := gi * t.g
  let p := (List.range (min (k0 + t.g) t.k - k0)).foldl (fun x d =>
    if t.live (k0 + d) then x + signed t.fa.width (t.a i j (k0 + d)) * signed t.fb.width (t.b (k0 + d) j) else x) (0 : Int)
  let r := sat32 (acc.1 + p)
  (r.1, acc.2 + b2n r.2)

/-- The groups of a command. -/
def ArrayJob.groups (t : ArrayJob) : Nat := ceilDiv t.k t.g

/-- A cell's result from its starting value, and its saturations (R85-R88). -/
def ArrayJob.cell (t : ArrayJob) (i j acc : Nat) : Nat × Nat :=
  if t.accInt then
    let r := (List.range t.groups).foldl (t.groupInt i j) (signed 32 acc, 0)
    (unsigned 32 r.1, r.2)
  else if t.fa.isHalf || t.fb.isHalf then
    ((List.range t.k).foldl (fun c k =>
      if t.live k then fp32 ((ofFp32 c).add ((decode t.fa (t.a i j k)).mul (decode t.fb (t.b k j)))) else c) acc, 0)
  else ((List.range t.groups).foldl (t.group i j) acc, 0)

/-! ## The drain (R75, R78, R96) -/

/-- An element of an accumulator tile. -/
def Core.acc (c : Core) (tile i j : Nat) : Nat := c.bitsAt (tile + 8 * i) (32 * j) 32

/-- The lines of the active part of a tile. -/
def tileLines (tile m n : Nat) : List Nat := rowLines tile 8 32 m n

/-- The drain of a tile: the active elements only. -/
def tileWrites (tile m n : Nat) (v : Nat → Nat → Nat) (poison flagged : Bool) : List LineWrite :=
  (List.range m).flatMap (fun i => (List.range (ceilDiv n 16)).map (fun b =>
    let cnt := min 16 (n - 16 * b)
    { line := tile + 8 * i + b
      mask := 2 ^ (4 * cnt) - 1
      data := BitVec.ofNat 512 ((List.range cnt).foldl (fun x t => x + v i (16 * b + t) <<< (32 * t)) 0)
      tag := none, poison := poison, flagged := flagged, collided := false }))

/-- NaN elements among those drained. -/
def tileNans (m n : Nat) (v : Nat → Nat → Nat) : Nat :=
  (List.range m).foldl (fun x i => (List.range n).foldl (fun x j => x + b2n (isNan32 (v i j))) x) 0

/-! ## Scale descriptors, scale lines and side lists (R96-R103) -/

/-- The scale descriptor. -/
structure ScaleDesc where
  aScale : Nat
  bScale : Nat
  aSide : Nat
  bSide : Nat
  aIndex : Nat
  bIndex : Nat
  aBase : Nat
  bBase : Nat
  aSideLines : Nat
  bSideLines : Nat
  aS2 : Nat
  bS2 : Nat
  flags : Nat
  reserved : Bool

/-- The scale descriptor read from its 64 bytes. -/
def parseScale (bs : List Byte) : ScaleDesc :=
  { aScale := leAt bs 0 3, bScale := leAt bs 3 3, aSide := leAt bs 6 3, bSide := leAt bs 9 3,
    aIndex := leAt bs 0x0C 3, bIndex := leAt bs 0x0F 3, aBase := leAt bs 0x12 2, bBase := leAt bs 0x14 2,
    aSideLines := leAt bs 0x16 2, bSideLines := leAt bs 0x18 2, aS2 := leAt bs 0x1A 3, bS2 := leAt bs 0x1D 3,
    flags := leAt bs 0x20 1, reserved := !zeroAt bs 0x21 31 }

/-- One operand's scale lines with their ordinals, group by group (R98). -/
def scaleLines (line base count groups : Nat) : List (Nat × Nat) :=
  let l := if count ≤ 64 then 1 else 2
  (List.range (groups * l)).map (fun q => (line + base * l + q, base * l + q))

/-- The scale code of row (or column) `i` in command group `g` (R98). -/
def Core.scaleCode (c : Core) (line base count i g : Nat) : Nat :=
  let l := if count ≤ 64 then 1 else 2
  c.bitsAt (line + (base + g) * l + i / 64) (8 * (i % 64)) 8

/-- One operand's side list as the command reads it (R102, R103). -/
structure SideSpec where
  list : Nat
  index : Nat
  base : Nat
  lines : Nat
  rows : Nat
  k : Nat
  g : Nat
  isEsc : Nat → Nat → Bool

/-- Entry `n` of a side list. -/
def Core.sideEntry (c : Core) (d : SideSpec) (n : Nat) : Nat := c.bitsAt d.list (32 * n) 32

/-- Entries before tile group `n`. -/
def Core.sideIndex (c : Core) (d : SideSpec) (n : Nat) : Nat := c.bitsAt d.index (32 * n) 32

/-- The entries of command group `g` that belong to a row. -/
def Core.rowEntries (c : Core) (d : SideSpec) (g row : Nat) : List Nat :=
  let i0 := c.sideIndex d (d.base + g)
  let i1 := c.sideIndex d (d.base + g + 1)
  ((List.range (i1 - i0)).map (fun n => c.sideEntry d (i0 + n))).filter (fun e => field e 16 7 == row)

/-- Offsets within group `g` at which a row holds escapes. -/
def SideSpec.escapes (d : SideSpec) (g row : Nat) : List Nat :=
  (List.range (min d.g (d.k - g * d.g))).filter (fun o => d.isEsc row (g * d.g + o))

/-- Whether command group `g` pairs as R103 asks: in bounds, equal numbers, at most four a row, GTAG and OFFSET as the escapes. -/
def Core.sideOk (c : Core) (d : SideSpec) (g : Nat) : Bool :=
  let i0 := c.sideIndex d (d.base + g)
  let i1 := c.sideIndex d (d.base + g + 1)
  decide (i0 ≤ i1) && decide (i1 ≤ 16 * d.lines) &&
  (List.range d.rows).all (fun r =>
    let es := c.rowEntries d g r
    let os := d.escapes g r
    es.length == os.length && decide (os.length ≤ 4) &&
    (es.zip os).all (fun p => field p.1 30 2 == (d.base + g) % 4 && field p.1 23 7 == p.2)) &&
  (i1 - i0 == (List.range d.rows).foldl (fun n r => n + (d.escapes g r).length) 0)

/-- The groups a side list is read for. -/
def SideSpec.groups (d : SideSpec) : Nat := ceilDiv d.k d.g

/-- Lines of the side index and side list that the command reads. -/
def Core.sideLinesRead (c : Core) (d : SideSpec) : List Nat :=
  let idx := ((List.range (d.groups + 1)).map (fun g => d.index + 4 * (d.base + g) / 64)).eraseDups
  let i0 := c.sideIndex d d.base
  let i1 := c.sideIndex d (d.base + d.groups)
  let lo := i0 / 16
  let hi := min (ceilDiv i1 16) (d.lines + 1)
  idx ++ (List.range (hi - lo)).map (fun q => d.list + lo + q)

/-- The side value of the element at reduction index `k` of a row, where it is an escape. -/
def Core.sideValue (c : Core) (d : SideSpec) (row k : Nat) : Option Val :=
  if d.isEsc row k then
    let g := k / d.g
    let n := ((d.escapes g row).filter (fun o => decide (o < k % d.g))).length
    some (decode .bf16 (((c.rowEntries d g row).getD n 0) % 2 ^ 16))
  else none

/-- What scales and side lists bring to a command: the lines read, and whether a tag, a partition or a pairing is wrong. -/
structure ScaleCheck where
  lines : List Nat
  skew : Bool

/-- Lines of KIND 6 with matching step tags. -/
def State.tagsOk (s : State) (k : Fin 7) (ls : List (Nat × Nat)) : Bool :=
  ls.all (fun p => s.inKind k 6 p.1 && (s.cores[k].line p.1).tag.toNat == p.2 % 16)

/-- The scale lines and side list lines that an operand's check reads. -/
def Core.scaleReads (c : Core) (scaleOn escOn : Bool) (line : Nat) (d : SideSpec) : List Nat :=
  (if scaleOn then (scaleLines line d.base d.rows d.groups).map (·.1) else []) ++ (if escOn then c.sideLinesRead d else [])

/-- One operand's scale lines and side list checked (R97, R100, R103). -/
def State.checkOperand (s : State) (k : Fin 7) (scaleOn escOn : Bool) (line : Nat) (d : SideSpec) : ScaleCheck :=
  let sl := if scaleOn then scaleLines line d.base d.rows d.groups else []
  let side := if escOn then s.cores[k].sideLinesRead d else []
  { lines := s.cores[k].scaleReads scaleOn escOn line d
    skew := !s.tagsOk k sl || !side.all (fun l => s.inKind k 6 l) ||
      (escOn && !(List.range d.groups).all (fun g => s.cores[k].sideOk d g)) }

/-! ## One command -/

/-- TCn_STEPS of a block advanced: array handshakes that carried a product (64 bits, telemetry). -/
def State.addSteps (s : State) (blk n : Nat) : State :=
  let t := s.reg (blk + 0x218) + 2 ^ 32 * s.reg (bank 0x300 (blk + 0x21C)) + n
  (s.setReg (blk + 0x218) (t % 2 ^ 32)).setReg (bank 0x300 (blk + 0x21C)) (t / 2 ^ 32 % 2 ^ 32)

/-- Handshakes of a reduction of `k` steps (R84). -/
def arraySteps (fa fb : Fmt) (k : Nat) : Nat :=
  let w := max fa.width fb.width
  if w ≤ 6 then ceilDiv k 2 else if w ≤ 8 then k else 4 * k

/-- What a matrix command writes and counts: the tile, whether its products are dropped, and its scale and poison outcome. -/
structure TileRun where
  tile : Nat
  m : Nat
  n : Nat
  accumulate : Bool
  poisoned : Bool
  flagged : Bool
  skew : Bool
  bad : Bool
  steps : Nat
  float : Bool

/-- A tile drained: the starting values where the products are dropped, otherwise `v i j` from the start (R89, R100).
`sats` is the number of ACC_SAT counts. -/
def State.drain (s : State) (h : Holder) (r : TileRun) (v : Nat → Nat → Nat) (sats : Nat) : State :=
  let k := coreOf h.queue.unit
  let b := coreBlk k
  let c := s.cores[k]
  let start (i j : Nat) : Nat := if r.accumulate then c.acc r.tile i j else 0
  let dropped := r.poisoned || r.skew || r.bad
  let out := if dropped then start else v
  let s := s.writeLines k (some h) true (tileWrites r.tile r.m r.n out dropped r.flagged)
  let s := s.noteMarks h.queue r.poisoned r.flagged
  let s := if r.skew then s.count (cScaleSkew h.queue.unit) 1 else s
  let s := if dropped then s.count (cPoisonedTile h.queue.unit) 1
    else (s.count (b + 0x20C) sats).addSteps b r.steps
  let s := if r.float then s.count (b + 0x210) (tileNans r.m r.n out) else s
  s.worked h

/-- Saturations over the active cells. -/
def ArrayJob.sats (t : ArrayJob) (start : Nat → Nat → Nat) : Nat :=
  if t.accInt then
    (List.range t.m).foldl (fun x i => (List.range t.n).foldl (fun x j => x + (t.cell i j (start i j)).2) x) 0
  else 0

/-- The s2 scaling of a drain (R96). -/
def s2Drain (acc s2a s2b : Nat) : Nat := fmul (fmul acc s2a) s2b

/-- Element `(i, k)` of A and `(k, j)` of B in their views, for elements of `w` bits (R76). -/
def matA (c : Core) (o : MatmulOps) (w i k : Nat) : Nat := if o.mode.testBit 1 then c.elem o.aLine o.aPitch w k i else c.elem o.aLine o.aPitch w i k
def matB (c : Core) (o : MatmulOps) (w k j : Nat) : Nat := if o.mode.testBit 2 then c.elem o.bLine o.bPitch w k j else c.elem o.bLine o.bPitch w j k

/-- The side lists of A and of B as a command reads them (R102, R103). -/
def matSideA (c : Core) (o : MatmulOps) (d : ScaleDesc) (f : Fmt) : SideSpec :=
  ⟨d.aSide, d.aIndex, d.aBase, d.aSideLines, o.mM1 + 1, o.kM1 + 1, groupLen (field o.mode 3 2), fun i k => o.mode.testBit 7 && matA c o f.width i k == f.escape⟩
def matSideB (c : Core) (o : MatmulOps) (d : ScaleDesc) (f : Fmt) : SideSpec :=
  ⟨d.bSide, d.bIndex, d.bBase, d.bSideLines, o.nM1 + 1, o.kM1 + 1, groupLen (field o.mode 3 2), fun j k => o.mode.testBit 7 && matB c o f.width k j == f.escape⟩

/-- Whether a command reads its scale descriptor. -/
def matDesc (s2 : Bool) (o : MatmulOps) : Bool := s2 || o.mode.testBit 5 || o.mode.testBit 6 || o.mode.testBit 7

/-- The lines that a matrix command reads: operands, scale descriptor, scales, side lists, second-level scales, and starting values. -/
def matReads (c : Core) (s2 : Bool) (o : MatmulOps) (fa fb : Fmt) : List Nat :=
  let m := o.mM1 + 1
  let n := o.nM1 + 1
  let k := o.kM1 + 1
  let d := parseScale (c.bytes (64 * o.scaleLine) 64)
  let esc := o.mode.testBit 7
  (if o.mode.testBit 1 then rowLines o.aLine o.aPitch fa.width k m else rowLines o.aLine o.aPitch fa.width m k) ++
  (if o.mode.testBit 2 then rowLines o.bLine o.bPitch fb.width k n else rowLines o.bLine o.bPitch fb.width n k) ++
  (if matDesc s2 o then
    o.scaleLine :: (c.scaleReads (o.mode.testBit 5) esc d.aScale (matSideA c o d fa) ++ c.scaleReads (o.mode.testBit 6) esc d.bScale (matSideB c o d fb) ++
      (if s2 then linesOf d.aS2 (if d.flags.testBit 0 then 32 else 32 * m) ++ linesOf d.bS2 (if d.flags.testBit 1 then 32 else 32 * n) else []))
   else []) ++
  (if o.mode.testBit 0 then tileLines o.accLine m n else [])

/-- The extra handshakes of a matrix command's operands (R116). DEDUCED (log 112). -/
def matExtra (o : MatmulOps) (fa fb : Fmt) : Nat :=
  let side (byCol : Bool) (base pitch rows len w : Nat) : Nat :=
    if byCol then operandExtra base pitch len (ceilDiv (rows * w) 512) else operandExtra base pitch rows (ceilDiv (len * w) 512)
  side (o.mode.testBit 1) o.aLine o.aPitch (o.mM1 + 1) (o.kM1 + 1) fa.width + side (o.mode.testBit 2) o.bLine o.bPitch (o.nM1 + 1) (o.kM1 + 1) fb.width

/-- MATMUL (R76-R89) and, with `s2`, MATMUL_S2 (R96): the work of one command. -/
def matmulWork (s2 : Bool) (o : MatmulOps) (h : Holder) (s : State) : State :=
  match Fmt.ofCode o.fmtA, Fmt.ofCode o.fmtB with
  | some fa, some fb =>
    let u := coreOf h.queue.unit
    let c := s.cores[u]
    let m := o.mM1 + 1
    let n := o.nM1 + 1
    let k := o.kM1 + 1
    let g := groupLen (field o.mode 3 2)
    let accumulate := o.mode.testBit 0
    let scA := o.mode.testBit 5
    let scB := o.mode.testBit 6
    let esc := o.mode.testBit 7
    let d := parseScale (c.bytes (64 * o.scaleLine) 64)
    let sideA := matSideA c o d fa
    let sideB := matSideB c o d fb
    let ca := s.checkOperand u scA esc d.aScale sideA
    let cb := s.checkOperand u scB esc d.bScale sideB
    let reads := matReads c s2 o fa fb
    let mk := c.marks reads
    let t : ArrayJob :=
      { m := m, n := n, k := k, g := g, fa := fa, fb := fb, accInt := o.mode.testBit 8,
        a := fun i _ k => matA c o fa.width i k, b := matB c o fb.width, live := fun _ => true,
        rowScale := fun i g => if scA then some (c.scaleCode d.aScale d.aBase m i g) else none,
        colScale := fun j g => if scB then some (c.scaleCode d.bScale d.bBase n j g) else none,
        sideA := fun i k => if esc then c.sideValue sideA i k else none,
        sideB := fun j k => if esc then c.sideValue sideB j k else none }
    let start (i j : Nat) : Nat := if accumulate then c.acc o.accLine i j else 0
    let s2a (i : Nat) : Nat := c.bitsAt d.aS2 (if d.flags.testBit 0 then 0 else 32 * i) 32
    let s2b (j : Nat) : Nat := c.bitsAt d.bS2 (if d.flags.testBit 1 then 0 else 32 * j) 32
    let v (i j : Nat) : Nat :=
      let x := (t.cell i j (start i j)).1
      if s2 then s2Drain x (s2a i) (s2b j) else x
    let skew := matDesc s2 o && (ca.skew || cb.skew || d.reserved || decide (4 ≤ d.flags))
    ((s.touchLines u reads).count (coreBlk u + 0x31C) (matExtra o fa fb)).drain h
      { tile := o.accLine, m := m, n := n, accumulate := accumulate, poisoned := mk.1, flagged := mk.2, skew := skew,
        bad := false, steps := arraySteps fa fb k, float := !t.accInt } v (t.sats start)
  | _, _ => s.worked h

end Sys2Proof.Machine
end

