-- ==== Sys2Proof/Machine/Picture.lean ====
section
/-! DEFINITION. Machine/Picture.lean: what the front end and the back end compute, as functions of a frame (R173-R187, R207-R212). -/

namespace Sys2Proof.Machine

open Sys2Proof

/-! ## Raw pixels (R173, R177) -/

/-- Bits per pixel of a camera format (codes 0x20-0x26). -/
def rawBits (fmt : Nat) : Nat :=
  match fmt with
  | 0x20 => 8 | 0x21 => 10 | 0x22 => 12 | 0x23 => 14 | 0x24 => 16 | 0x25 => 20 | 0x26 => 24 | _ => 8

/-- The data type of a camera format. -/
def rawType (fmt : Nat) : Nat :=
  match fmt with
  | 0x20 => 0x2A | 0x21 => 0x2B | 0x22 => 0x2C | 0x23 => 0x2D | 0x24 => 0x2E | 0x25 => 0x2F | 0x26 => 0x27 | _ => 0

/-- Image data types (R173). -/
def isRawType (dt : Nat) : Bool := [0x2A, 0x2B, 0x2C, 0x2D, 0x2E, 0x2F, 0x27].contains dt

/-- A byte of a packet, when it arrived. -/
def byteAt (bs : List Byte) (i : Nat) : Option Nat := bs[i]?.map (·.toNat)

/-- Pixel `i` of a packet in the packing of its format; `none` when not all its bits arrived (R177). CSI-2 packs the high
eight bits of each pixel of a group first and the low bits behind them, and a RAW20 pixel as two RAW10 pixels, the high half first. PRESUMED (log 113). -/
def rawPixel (fmt : Nat) (bs : List Byte) (i : Nat) : Option Nat :=
  match fmt with
  | 0x20 => byteAt bs i
  | 0x21 => do
    let h ← byteAt bs (i / 4 * 5 + i % 4)
    let l ← byteAt bs (i / 4 * 5 + 4)
    pure (h * 4 + field l (2 * (i % 4)) 2)
  | 0x22 => do
    let h ← byteAt bs (i / 2 * 3 + i % 2)
    let l ← byteAt bs (i / 2 * 3 + 2)
    pure (h * 16 + field l (4 * (i % 2)) 4)
  | 0x23 => do
    let b := i / 4 * 7
    let h ← byteAt bs (b + i % 4)
    let l0 ← byteAt bs (b + 4 + 6 * (i % 4) / 8)
    let l1 ← if 6 * (i % 4) % 8 = 0 then some 0 else if 6 * (i % 4) % 8 + 6 ≤ 8 then some 0 else byteAt bs (b + 5 + 6 * (i % 4) / 8)
    pure (h * 64 + field (l0 + 256 * l1) (6 * (i % 4) % 8) 6)
  | 0x24 => do
    let l ← byteAt bs (2 * i)
    let h ← byteAt bs (2 * i + 1)
    pure (h * 256 + l)
  | 0x25 => do
    let b := i / 2 * 5
    let h ← byteAt bs (b + 2 * (i % 2))
    let m ← byteAt bs (b + 2 * (i % 2) + 1)
    let l ← byteAt bs (b + 4)
    pure ((h * 4 + field l (4 * (i % 2)) 2) * 1024 + m * 4 + field l (4 * (i % 2) + 2) 2)
  | _ => do
    let l ← byteAt bs (3 * i)
    let m ← byteAt bs (3 * i + 1)
    let h ← byteAt bs (3 * i + 2)
    pure (h * 65536 + m * 256 + l)

/-- Bytes of a line of `w` pixels. -/
def lineBytes (fmt w : Nat) : Nat := ceilDiv (rawBits fmt * w) 8

/-- A packet fitted to `w` pixels (R177). -/
def fitLine (fmt w pad : Nat) (bs : List Byte) (flagged : Bool) : RawLine :=
  let ps := (List.range w).map (rawPixel fmt bs)
  let p := pad % 2 ^ rawBits fmt
  { codes := ps.map (·.getD p), valid := (ps.takeWhile (·.isSome)).length, flagged := flagged, poisoned := false, here := true }

/-- A pad line (R177); `here` is false for a line that was dropped (R185). -/
def padLine (fmt w pad : Nat) (here : Bool) : RawLine :=
  { codes := List.replicate w (pad % 2 ^ rawBits fmt), valid := 0, flagged := false, poisoned := false, here := here }

/-- A line packed as its format packs it, for a ring in memory and for the camera channel's digest. PRESUMED (log 113). -/
def packLine (fmt : Nat) (codes : List Nat) : List Byte :=
  let n := codes.length
  let c (i : Nat) : Nat := codes.getD i 0
  let out := match fmt with
  | 0x20 => codes.map (fun c => BitVec.ofNat 8 c)
  | 0x21 => (List.range (ceilDiv n 4)).flatMap (fun g =>
      ((List.range 4).map (fun k => BitVec.ofNat 8 (c (4 * g + k) / 4))) ++
      [BitVec.ofNat 8 ((List.range 4).foldl (fun a k => a + c (4 * g + k) % 4 * 4 ^ k) 0)])
  | 0x22 => (List.range (ceilDiv n 2)).flatMap (fun g =>
      ((List.range 2).map (fun k => BitVec.ofNat 8 (c (2 * g + k) / 16))) ++
      [BitVec.ofNat 8 (c (2 * g) % 16 + c (2 * g + 1) % 16 * 16)])
  | 0x23 => (List.range (ceilDiv n 4)).flatMap (fun g =>
      ((List.range 4).map (fun k => BitVec.ofNat 8 (c (4 * g + k) / 64))) ++
      leBytes 3 ((List.range 4).foldl (fun a k => a + c (4 * g + k) % 64 * 64 ^ k) 0))
  | 0x24 => codes.flatMap (leBytes 2)
  | 0x25 => (List.range (ceilDiv n 2)).flatMap (fun g =>
      ((List.range 2).flatMap (fun k => [BitVec.ofNat 8 (c (2 * g + k) / 4096), BitVec.ofNat 8 (c (2 * g + k) / 4)])) ++
      [BitVec.ofNat 8 ((List.range 2).foldl (fun a k => a + (c (2 * g + k) / 1024 % 4 + c (2 * g + k) % 4 * 4) * 16 ^ k) 0)])
  | _ => codes.flatMap (leBytes 3)
  slice out 0 (lineBytes fmt n)

/-! ## Frame numbers (R175) -/

/-- The advance of the frame number. -/
def frameAdvance (fs prev fnMax : Nat) : Nat :=
  if fs = 0 ∨ prev = 0 ∨ fs = prev ∨ fnMax = 0 then 1
  else ((((fs : Int) - prev - 1) % fnMax).toNat) + 1

/-- A frame number and epoch `d` frames later (R24). -/
def addFrames (frame epoch d : Nat) : Nat × Nat :=
  ((frame + d) % 2 ^ 32, (epoch + (frame + d) / 2 ^ 32) % 2 ^ 16)

/-- Whether one numbered frame is at or before another. -/
def frameLe (f e f' e' : Nat) : Bool := decide (e * 2 ^ 32 + f ≤ e' * 2 ^ 32 + f')

/-! ## The front end's configuration (R179-R187) -/

/-- The front end's sets in effect for a frame, read as fields. -/
structure FeCfg where
  fmt : Nat
  width : Nat
  height : Nat
  period : Nat
  exposures : Nat
  cfa : Nat
  lin : Option (List Byte)
  black : List Byte
  statics : List (Nat × Nat)
  dyn : Nat
  hdr : Option (List Byte)
  separate : Bool
  gain : Nat
  offset : Nat
  out : Option Fmt
  layout : Nat
  stats : List Byte
  deriving DecidableEq, Repr

/-- Statistics with no group 6 set: every histogram off and one zone. -/
def noStats : List Byte :=
  List.replicate 4 0xFF ++ List.replicate 8 0 ++ [1, 1] ++ List.replicate 50 0

/-- The block of a group in effect. -/
def setBlock (sets : List (Option PSet)) (g : Nat) : Option (List Byte) := ((sets[g]?).join).map (·.data)

/-- The configuration of a frame of a camera channel `cam` whose rows leave on channel `row`. -/
def feCfg (sets : List (Option PSet)) (statics : List (Nat × Nat)) (cam : Entry) (row : Option Entry) : FeCfg :=
  let g0 := (setBlock sets 0).getD []
  let g4 := setBlock sets 4
  let g5 := (setBlock sets 5).getD (leBytes 4 0x3F80_0000)
  { fmt := cam.elemFormat, width := cam.width, height := cam.height
    period := max 1 (leAt g0 4 1), exposures := max 1 (leAt g0 3 1), cfa := leAt g0 0x20 8
    lin := setBlock sets 1, black := (setBlock sets 2).getD [], statics := statics
    dyn := leAt ((setBlock sets 3).getD []) 0x0C 4, hdr := g4
    separate := (match g4 with | some b => leAt b 0x3F 1 == 1 | none => false)
    gain := leAt g5 0 4, offset := leAt g5 4 4
    out := row.bind (fun e => Fmt.ofCode e.elemFormat), layout := (match row with | some e => e.layout | none => 2)
    stats := (setBlock sets 6).getD noStats }

/-- The CFA position of a pixel (R181). -/
def FeCfg.pos (c : FeCfg) (y x : Nat) : Nat := 4 * (y % c.period) + x % c.period

/-- The colour class of a pixel. -/
def FeCfg.colour (c : FeCfg) (y x : Nat) : Nat := field c.cfa (4 * c.pos y x) 4

/-- `⌊i / d⌉` of a signed numerator, ties away from zero (R182). -/
def roundDiv (t : Int) (d : Nat) : Int :=
  let q : Nat := (2 * t.natAbs + d) / (2 * d)
  if t < 0 then -(q : Int) else q

/-- Knot `i` of a table. -/
def knot (tab : List Byte) (base i : Nat) : Nat × Nat := (leAt tab (base + 8 * i) 4 % 2 ^ 24, leAt tab (base + 8 * i + 4) 4 % 2 ^ 24)

/-- The segment of a table that holds `x`, searched from knot `i` on with `n` knots to go (R182). -/
def segmentFrom (tab : List Byte) (base x : Nat) : Nat → Nat → Nat
  | 0, i => i
  | n + 1, i => if i < 1022 ∧ (knot tab base (i + 1)).1 ≤ x then segmentFrom tab base x n (i + 1) else i

/-- A linearisation or tone table applied (R182). -/
def tableAt (tab : List Byte) (base x : Nat) : Nat :=
  let i := segmentFrom tab base x 1023 0
  let a := knot tab base i
  let b := knot tab base (i + 1)
  let y : Int := (a.2 : Int) + roundDiv (((x : Int) - a.1) * ((b.2 : Int) - a.2)) (b.1 - a.1)
  (max 0 (min y (2 ^ 24 - 1))).toNat

/-- A frame's lines. -/
abbrev Lines := List (List RawLine)

/-- Line `y` of exposure `e`; a line that has not come is a pad line. -/
def FeCfg.line (c : FeCfg) (ls : Lines) (pad e y : Nat) : RawLine :=
  match (ls.getD e [])[y]? with
  | some l => l
  | none => padLine c.fmt c.width pad true

/-- Steps 1-3 of R181: the pixel in the linearised domain less its black level, exact. -/
def FeCfg.linear (c : FeCfg) (ls : Lines) (pad e y x : Nat) : Val :=
  let r := (c.line ls pad e y).codes.getD x 0
  let x24 := r <<< (24 - rawBits c.fmt)
  let l := match c.lin with | some t => tableAt t (8192 * e) x24 | none => x24
  Val.ofInt ((l : Int) - (leAt c.black (64 * e + 4 * c.pos y x) 4 % 2 ^ 24 : Nat))

/-- Fold of an index over a mirrored range, as R138 does. -/
def fold (x : Int) (n : Nat) : Nat :=
  if n ≤ 1 then 0
  else
    let p := 2 * (n - 1)
    let r := (x % (p : Int)).toNat
    if r < n then r else p - r

/-- The neighbour of the same colour `d` steps along an axis of extent `n` (R183). -/
def sameColour (period n i : Nat) (d : Int) : Nat :=
  let count := ceilDiv (n - i % period) period
  fold ((i / period : Nat) + d) count * period + i % period

/-- The larger and the smaller of a list of values. -/
def maxVal (vs : List Val) : Val := vs.foldl (fun a v => if a.lt v then v else a) (vs.headD Val.zero)
def minVal (vs : List Val) : Val := vs.foldl (fun a v => if v.lt a then v else a) (vs.headD Val.zero)

/-- A value inserted into a rising list. -/
def insertVal (v : Val) : List Val → List Val
  | [] => [v]
  | w :: ws => if w.lt v then w :: insertVal v ws else v :: w :: ws

/-- Whether the pixel is a pad pixel of its exposure. -/
def FeCfg.isPad (c : FeCfg) (ls : Lines) (pad e y x : Nat) : Bool := decide ((c.line ls pad e y).valid ≤ x)

/-- Whether dynamic detection finds the pixel (R183). -/
def FeCfg.dynamic (c : FeCfg) (ls : Lines) (pad e y x : Nat) : Bool :=
  let t := ofFp32 c.dyn
  if !(Val.zero.lt t) || c.isPad ls pad e y x then false
  else
    let v := c.linear ls pad e y x
    let ns := [(-1, -1), (-1, 0), (-1, 1), (0, -1), (0, 1), (1, -1), (1, 0), (1, 1)].map (fun (d : Int × Int) =>
      c.linear ls pad e (sameColour c.period c.height y d.1) (sameColour c.period c.width x d.2))
    ((maxVal ns).add t).lt v || v.lt ((minVal ns).add t.negate)

/-- Step 4 of R181: defect correction (R183), an FP32 code. -/
def FeCfg.corrected (c : FeCfg) (ls : Lines) (pad e y x : Nat) : Nat :=
  if c.statics.contains (y, x) || c.dynamic ls pad e y x then
    let ax := [(-1, 0), (1, 0), (0, -1), (0, 1)].map (fun (d : Int × Int) =>
      c.linear ls pad e (sameColour c.period c.height y d.1) (sameColour c.period c.width x d.2))
    let a := ax.foldl (fun l v => insertVal v l) []
    fp32 (((a.getD 1 Val.zero).add (a.getD 2 Val.zero)).mul (.fin false 1 (-1)))
  else fp32 (c.linear ls pad e y x)

/-- A field of group 4 for an exposure: R, S, W at 0, 4, 8; with no set the merge passes exposure 0. -/
def FeCfg.hdrField (c : FeCfg) (e k : Nat) : Nat :=
  match c.hdr with
  | some b => leAt b (16 * e + 4 * k) 4
  | none => if k = 1 then 0x7F7F_FFFF else 0x3F80_0000

/-- The weight of a value in the merge (R184), an FP32 code. -/
def FeCfg.weight (c : FeCfg) (e v : Nat) : Nat :=
  let s := ofFp32 (c.hdrField e 1)
  let w := ofFp32 (c.hdrField e 2)
  let x := ofFp32 v
  if !((s.add w.negate).lt x) then 0x3F80_0000
  else if !(x.lt s) then 0
  else fdiv (s.add x.negate) w

/-- The merge of R184 over the exposures present, from the shortest. -/
def FeCfg.mergeFrom (c : FeCfg) (v : Nat → Nat) : List Nat → Nat → Nat
  | [], m => m
  | e :: es, m =>
    let a := fmul (v e) (c.hdrField e 0)
    let w := c.weight e (v e)
    let m' := if w = 0x3F80_0000 then a
      else if Val.zero.lt (ofFp32 w) then fadd (fmul a w) (fmul m (fp32 ((Val.ofInt 1).add (ofFp32 w).negate)))
      else m
    c.mergeFrom v es m'

/-- The exposures that a row of the merge uses, shortest first (R185): those whose line was kept; with none, all. -/
def FeCfg.present (c : FeCfg) (ls : Lines) (pad y : Nat) : List Nat :=
  let es := (List.range c.exposures).reverse
  let kept := es.filter (fun e => (c.line ls pad e y).here)
  if kept.isEmpty then es else kept

/-- The merged value `m` of a pixel (R184). -/
def FeCfg.merged (c : FeCfg) (ls : Lines) (pad y x : Nat) : Nat :=
  let v (e : Nat) : Nat := c.corrected ls pad e y x
  match c.present ls pad y with
  | [] => 0
  | e :: es => c.mergeFrom v es (fmul (v e) (c.hdrField e 0))

/-- Step 6 of R181: gain, offset and conversion; without a row channel the FP32 value stays. -/
def FeCfg.output (c : FeCfg) (m : Nat) : Conv :=
  let x := fadd (fmul m c.gain) c.offset
  match c.out with
  | some f => conv f (ofFp32 x)
  | none => ⟨x, false, false⟩

/-- Rows of the output layout (R186). -/
def FeCfg.rows (c : FeCfg) : Nat := if c.layout = 2 then c.height else c.height / c.period

/-- The last input line that an output row needs, defect correction included (R183). -/
def FeCfg.lastLine (c : FeCfg) (row : Nat) : Nat :=
  let l := if c.layout = 2 then row else (row + 1) * c.period - 1
  let more := if c.statics.isEmpty && c.dyn = 0 then 0 else c.period
  min (c.height - 1) (l + more)

/-- Input lines finished once the first `n` output rows have left. -/
def FeCfg.consumed (c : FeCfg) (n : Nat) : Nat := if c.layout = 2 then n else min c.height (n * c.period)

/-- The source pixels of an output row: exposure (`none`: merged), line and column, pixel by pixel with channels ascending (R186). DESIGN CHOICE (log 39). -/
def FeCfg.rowPixels (c : FeCfg) (row : Nat) : List (Option Nat × Nat × Nat) :=
  let p := c.period
  let cell (e : Option Nat) (x : Nat) : List (Option Nat × Nat × Nat) :=
    (List.range (p * p)).map (fun k => (e, row * p + k / p, x * p + k % p))
  if c.layout = 2 then (List.range c.width).map (fun x => (none, row, x))
  else if c.layout = 3 then
    (List.range (c.width / p)).flatMap (fun x => (List.range c.exposures).flatMap (fun e => cell (some e) x))
  else (List.range (c.width / p)).flatMap (fun x => cell none x)

/-- The results of an output row. -/
def FeCfg.rowOut (c : FeCfg) (ls : Lines) (pad row : Nat) : List Conv :=
  (c.rowPixels row).map (fun p =>
    c.output (match p.1 with
      | some e => c.corrected ls pad e p.2.1 p.2.2
      | none => c.merged ls pad p.2.1 p.2.2))

/-- Bytes of an element of the output. -/
def FeCfg.elem (c : FeCfg) : Nat := match c.out with | some f => f.width / 8 | none => 4

/-- The bytes of an output row. -/
def FeCfg.rowBytes (c : FeCfg) (ls : Lines) (pad row : Nat) : List Byte := (c.rowOut ls pad row).flatMap (fun r => leBytes c.elem r.code)

/-- The lines that the pixels of a line are computed from: its own, and those of its neighbours where defect correction reads them (R183). -/
def FeCfg.sources (c : FeCfg) (y : Nat) : List Nat :=
  if Val.zero.lt (ofFp32 c.dyn) || c.statics.any (fun d => d.1 == y) then
    [y, sameColour c.period c.height y (-1), sameColour c.period c.height y 1]
  else [y]

/-- Whether a line of an exposure holds a pad pixel of the output: a merged row leaves out the exposures that are missing, unless all are (R185). -/
def FeCfg.padded (c : FeCfg) (ls : Lines) (pad y : Nat) : Bool :=
  (if c.layout = 3 then List.range c.exposures else c.present ls pad y).any (fun e => decide ((c.line ls pad e y).valid < c.width))

/-- The marks of an output row: PAD when it holds a pad pixel, FLAGGED when a line that it is computed from is or an exposure is missing,
POISONED when such a line was read from an uncorrectable place (R19, R174, R177, R185, R280). -/
def FeCfg.rowMarks (c : FeCfg) (ls : Lines) (pad row : Nat) : Bool × Bool × Bool :=
  let ps := c.rowPixels row
  let lns := (ps.map (·.2.1)).eraseDups
  let read := (lns.flatMap c.sources).eraseDups
  let es := List.range c.exposures
  (lns.any (c.padded ls pad),
   read.any (fun y => es.any (fun e => (c.line ls pad e y).flagged || !(c.line ls pad e y).here)),
   read.any (fun y => es.any (fun e => (c.line ls pad e y).poisoned)))

/-- Dynamic defects replaced in the lines of an output row (R183). -/
def FeCfg.rowDynamic (c : FeCfg) (ls : Lines) (pad row : Nat) : Nat :=
  let lns := ((c.rowPixels row).map (·.2.1)).eraseDups
  lns.foldl (fun n y => n + (List.range c.exposures).foldl (fun n e => n + ((List.range c.width).filter (fun x =>
    c.dynamic ls pad e y x && !c.statics.contains (y, x))).length) 0) 0

/-! ## Statistics (R187) -/

/-- The value at the tap for a pixel, `none` for a pad pixel; the merge leaves out missing exposures (R185). -/
def FeCfg.tap (c : FeCfg) (ls : Lines) (pad y x : Nat) : Option Nat :=
  let e := leAt c.stats 7 1 % 4
  if leAt c.stats 6 1 = 1 then
    if (c.present ls pad y).any (fun e => c.isPad ls pad e y x) then none else some (c.merged ls pad y x)
  else if c.isPad ls pad e y x then none else some (c.corrected ls pad e y x)

/-- The sum of a cell: every pixel non-pad, added in ascending position with a rounding after each addition. -/
def sumCell : List (Option Nat) → Option Nat
  | [] => none
  | v :: vs => vs.foldl (fun a x => match a, x with | some p, some q => some (fadd p q) | _, _ => none) v

/-- The samples of histogram channel `h`: position and FP32 value. DESIGN CHOICE (log 39). -/
def FeCfg.samples (c : FeCfg) (ls : Lines) (pad h : Nat) : List (Nat × Nat × Nat) :=
  let k := leAt c.stats h 1
  let p := c.period
  if k = 7 then
    (List.range (c.height / p)).flatMap (fun cy => (List.range (c.width / p)).filterMap (fun cx =>
      (sumCell ((List.range (p * p)).map (fun i => c.tap ls pad (cy * p + i / p) (cx * p + i % p)))).map
        (fun v => (cy * p, cx * p, v))))
  else if k < 7 then
    (List.range c.height).flatMap (fun y => (List.range c.width).filterMap (fun x =>
      if c.colour y x = k then (c.tap ls pad y x).map (fun v => (y, x, v)) else none))
  else []

/-- `⌊v × scale⌋` of a non-negative product, zero otherwise; an infinity gives `top`. -/
def floorMul (v scale : Nat) (top : Nat) : Nat :=
  match (ofFp32 v).mul (ofFp32 scale) with
  | .fin s m e => if s then 0 else shl m e / shl 1 (-e)
  | .inf s => if s then 0 else top
  | .nan => 0

/-- The bin of a sample. -/
def FeCfg.bin (c : FeCfg) (v : Nat) : Nat :=
  if leAt c.stats 4 1 = 1 then
    if Val.zero.lt (ofFp32 v) then
      let e : Int := field v 23 8
      (max 0 (min (16 * (e - 127 - signed 8 (leAt c.stats 5 1)) + field v 19 4) 255)).toNat
    else 0
  else min 255 (floorMul v (leAt c.stats 8 4) 255)

/-- The zone counts and sizes: ZONES_X, ZONES_Y, ZW, ZH. -/
def FeCfg.zones (c : FeCfg) : Nat × Nat × Nat × Nat :=
  let zx := max 1 (leAt c.stats 0x0C 1)
  let zy := max 1 (leAt c.stats 0x0D 1)
  (zx, zy, max c.period (c.period * (c.width / (zx * c.period))), max c.period (c.period * (c.height / (zy * c.period))))

/-- The zone of a sample, in raster order. -/
def FeCfg.zoneOf (c : FeCfg) (y x : Nat) : Nat :=
  let z := c.zones
  min (y / z.2.2.2) (z.2.1 - 1) * z.1 + min (x / z.2.2.1) (z.1 - 1)

/-- A count held at its maximum, and whether it was beyond it. DESIGN CHOICE (log 40). -/
def capAt (top n : Nat) : Nat × Bool := (min n top, decide (top < n))

/-- `⌊max(v, 0) × ZONE_SCALE⌋` of a zone sum (R187). -/
def FeCfg.zoneTerm (c : FeCfg) (v : Nat) : Nat := if (ofFp32 v).lt Val.zero then 0 else floorMul v (leAt c.stats 0x10 4) (2 ^ 32 - 1)

/-- The statistics of a frame: the bytes of the histogram record after its FLAGS, those of the zone record, and how many bins, counts and sums of each saturated.
DESIGN CHOICE (log 40). -/
def FeCfg.statistics (c : FeCfg) (ls : Lines) (pad : Nat) : List Byte × List Byte × Nat × Nat :=
  let ss := (List.range 4).map (c.samples ls pad)
  let count := ss.map (fun l => capAt (2 ^ 32 - 1) l.length)
  let bins := ss.map (fun l => (List.range 256).map (fun b => capAt (2 ^ 24 - 1) (l.filter (fun x => c.bin x.2.2 == b)).length))
  let hist := (count.flatMap (fun x => leBytes 4 x.1)) ++ leBytes 1 (leAt c.stats 4 1) ++ leBytes 1 (leAt c.stats 6 1) ++
    List.replicate 38 0 ++ (bins.flatMap (fun h => h.flatMap (fun x => leBytes 3 x.1)))
  let z := c.zones
  let sat := ofFp32 (leAt c.stats 0x14 4)
  let zone (k : Nat) : List (Nat × Bool) × List Byte :=
    let inz := ss.map (fun l => l.filter (fun x => c.zoneOf x.1 x.2.1 == k))
    let sums := inz.map (fun l => capAt (2 ^ 32 - 1) (l.foldl (fun n x => n + c.zoneTerm x.2.2) 0))
    let cnts := inz.map (fun l => capAt (2 ^ 16 - 1) l.length)
    let sats := capAt (2 ^ 16 - 1) (inz.foldl (fun n l => n + (l.filter (fun x => !((ofFp32 x.2.2).lt sat))).length) 0)
    (sums ++ cnts ++ [sats],
      (sums.flatMap (fun x => leBytes 4 x.1)) ++ (cnts.flatMap (fun x => leBytes 2 x.1)) ++ leBytes 2 sats.1 ++ leBytes 2 0)
  let zs := (List.range (z.1 * z.2.1)).map zone
  let zrec := leBytes 1 z.1 ++ leBytes 1 z.2.1 ++ leBytes 2 0 ++ leBytes 2 z.2.2.1 ++ leBytes 2 z.2.2.2 ++
    List.replicate 48 0 ++ zs.flatMap (·.2)
  let past (xs : List (Nat × Bool)) : Nat := (xs.filter (·.2)).length
  (hist, zrec, past count + past bins.flatten, past (zs.flatMap (·.1)))

/-- The frame record (R187) with its tick fields as given. -/
def Frame.record (f : Frame) (camera width height : Nat) (ticks : Nat × Nat × Nat) : List Byte :=
  let g0 := (setBlock f.sets 0).getD []
  let flags := b2n f.short + 2 * b2n f.long + 4 * b2n f.feMissing + 8 * b2n f.timeout + 16 * b2n f.overrate +
    32 * b2n f.flagged + 64 * b2n f.late + 128 * b2n f.memFed
  let per (g : Exposure → Nat) : List Byte := (List.range 4).flatMap (fun e =>
    leBytes 2 (min 0xFFFF (match f.exps[e]? with | some x => g x | none => 0)))
  leBytes 4 f.number ++ leBytes 2 f.epoch ++ leBytes 2 f.sensorFn ++ leBytes 8 ticks.1 ++ leBytes 8 ticks.2.1 ++
  leBytes 8 ticks.2.2 ++ leBytes 1 camera ++ leBytes 1 (leAt g0 0 1) ++ leBytes 1 (leAt g0 1 1) ++ leBytes 1 flags ++
  leBytes 2 width ++ leBytes 2 height ++ per (·.rx) ++ per (·.short) ++ per (·.long) ++ per (·.pad) ++ per (·.extra) ++
  leBytes 2 (min 0xFFFF f.crcErr) ++ leBytes 2 (min 0xFFFF f.ecc) ++ leBytes 4 (min (2 ^ 32 - 1) f.dynamic) ++
  leBytes 2 (min 0xFFFF f.stagger) ++ leBytes 2 f.emb.length ++ leBytes 2 (min 0xFFFF f.skip) ++ leBytes 2 0 ++
  ((List.range 8).flatMap (fun g => leBytes 4 (match (f.sets[g]?).join with | some x => x.setId | none => 0))) ++
  slice ((setBlock f.sets 7).getD []) 0 32 ++ List.replicate 96 0 ++ slice f.emb 0 3840

/-! ## The back end (R207-R212) -/

/-- An exact integer combination is rounded once. -/
def rnd (v : Val) : Nat := fp32 v

/-- The back end's sets in effect for a frame, with its input size. -/
structure BeCfg where
  g0 : List Byte
  matrix : Option (List Byte)
  tone : Option (List Byte)
  coef : Option (List Byte)
  norm : List Byte
  deriving DecidableEq, Repr

def BeCfg.inW (c : BeCfg) : Nat := leAt c.g0 2 2
def BeCfg.inH (c : BeCfg) : Nat := leAt c.g0 4 2
/-- A field of OUTPUT[o]. -/
def BeCfg.outF (c : BeCfg) (o off n : Nat) : Nat := leAt c.g0 (8 + 16 * o + off) n
def BeCfg.format (c : BeCfg) (o : Nat) : Nat := c.outF o 0 1
def BeCfg.colour (c : BeCfg) (o : Nat) : Nat := c.outF o 2 1 % 4
def BeCfg.limited (c : BeCfg) (o : Nat) : Bool := (c.outF o 2 1).testBit 2
def BeCfg.outW (c : BeCfg) (o : Nat) : Nat := c.outF o 4 2
def BeCfg.outH (c : BeCfg) (o : Nat) : Nat := c.outF o 6 2
/-- The crop of an output: x, y, width, height; CROP_W = 0 is the whole frame. -/
def BeCfg.crop (c : BeCfg) (o : Nat) : Nat × Nat × Nat × Nat :=
  if c.outF o 12 2 = 0 then (0, 0, c.inW, c.inH) else (c.outF o 8 2, c.outF o 10 2, c.outF o 12 2, c.outF o 14 2)

/-- An image: three FP32 codes per pixel. -/
abbrev Image := List (List (List Nat))

/-- A channel of a pixel. -/
def pix (im : Image) (y x c : Nat) : Nat := ((im.getD y []).getD x []).getD c 0

/-- Steps 2 and 3 of R207 on a pixel: colour matrix and tone; without a set the identity. -/
def BeCfg.colourTone (c : BeCfg) (x : List Nat) : List Nat :=
  (List.range 3).map (fun i =>
    let v (k : Nat) : Val := ofFp32 (x.getD k 0)
    let ci := match c.matrix with
      | some m => rnd ((List.range 3).foldl (fun a k => a.add ((ofFp32 (leAt m (12 * i + 4 * k) 4)).mul (v k))) (ofFp32 (leAt m (0x24 + 4 * i) 4)))
      | none => x.getD i 0
    let u := match conv .int32 ((ofFp32 ci).mul (.fin false 1 24)) with
      | r => (max 0 (min (signed 32 r.code) (2 ^ 24 - 1))).toNat
    let l := match c.tone with | some t => tableAt t (8192 * i) u | none => u
    rnd (.fin false l (-24)))

/-- The position of output `o` of an axis with input extent `n` and output extent `m`: index and phase (R209). -/
def scalePos (n m o : Nat) : Int × Nat :=
  let q : Int := ((2 * ((2 * o + 1) * n * 2 ^ 16) / (2 * m) + 1) / 2 : Nat)
  let p := q - 2 ^ 15
  (p / 2 ^ 16, ((p / 2 ^ 10) % 64).toNat)

/-- A coefficient of group 3; without a set the identity filter. -/
def BeCfg.coefAt (c : BeCfg) (o dir phase tap : Nat) : Int :=
  match c.coef with
  | some b => signed 16 (leAt b (2048 * o + 1024 * dir + 16 * phase + 2 * tap) 2)
  | none => if tap = 3 then 16384 else 0

/-- One filtered sample: eight taps, one rounding. -/
def filter8 (coef : Nat → Int) (src : Int → Nat) (i : Int) : Nat :=
  rnd (((List.range 8).foldl (fun a t => a.add ((Val.ofInt (coef t)).mul (ofFp32 (src (i - 3 + t))))) Val.zero).mul (.fin false 1 (-14)))

/-- An index clamped to `[0, n - 1]`. -/
def clampIdx (i : Int) (n : Nat) : Nat := (max 0 (min i ((n : Int) - 1))).toNat

/-- An output's scaled image (R209): crop, horizontal pass, vertical pass. DESIGN CHOICE (log 39). -/
def BeCfg.scaled (c : BeCfg) (im : Image) (o : Nat) : Image :=
  let k := c.crop o
  let horiz : Image := (List.range k.2.2.2).map (fun y => (List.range (c.outW o)).map (fun x =>
    let p := scalePos k.2.2.1 (c.outW o) x
    (List.range 3).map (fun ch => filter8 (c.coefAt o 0 p.2) (fun i => pix im (k.2.1 + y) (k.1 + clampIdx i k.2.2.1) ch) p.1)))
  (List.range (c.outH o)).map (fun y => (List.range (c.outW o)).map (fun x =>
    let p := scalePos k.2.2.2 (c.outH o) y
    (List.range 3).map (fun ch => filter8 (c.coefAt o 1 p.2) (fun i => pix horiz (clampIdx i k.2.2.2) x ch) p.1)))

/-- The FP32 value nearest to a decimal constant of four digits. -/
def k4 (n : Nat) : Val := ofFp32 (fp32OfQ false n 10000)

/-- K_R and K_B of a COLOUR (R210). -/
def lumaConst (colour : Nat) : Val × Val :=
  if colour = 1 then (k4 2990, k4 1140) else if colour = 2 then (k4 2126, k4 722) else (k4 2627, k4 593)

/-- Y, Cb, Cr of a pixel, each one rounding from the FP32 inputs (R210). -/
def toYcc (colour : Nat) (p : List Nat) : List Nat :=
  let v (k : Nat) : Val := ofFp32 (p.getD k 0)
  let kc := lumaConst colour
  let one := Val.ofInt 1
  let kg := (one.add kc.1.negate).add kc.2.negate
  let y := ((kc.1.mul (v 0)).add (kg.mul (v 1))).add (kc.2.mul (v 2))
  let two := Val.ofInt 2
  [rnd y, fdiv ((v 2).add y.negate) (two.mul (one.add kc.2.negate)), fdiv ((v 0).add y.negate) (two.mul (one.add kc.1.negate))]

/-- The mean of FP32 values, a power of two of them, one rounding. -/
def meanOf (vs : List Nat) : Nat :=
  rnd ((vs.foldl (fun a x => a.add (ofFp32 x)) Val.zero).mul (.fin false 1 (-(vs.length.log2 : Int))))

/-- An `n`-bit code: `clamp(round(v), 0, 2^n - 1)`. -/
def codeN (n : Nat) (v : Val) : Nat := (max 0 (min (signed 32 (conv .int32 v).code) (2 ^ n - 1))).toNat

/-- The code of an RGB value, of luma and of chroma (R210). -/
def rgbCode (n v : Nat) : Nat := codeN n ((Val.ofInt (2 ^ n - 1)).mul (ofFp32 v))
def lumaCode (limited : Bool) (n v : Nat) : Nat :=
  if limited then codeN n ((((Val.ofInt 219).mul (ofFp32 v)).add (Val.ofInt 16)).mul (.fin false 1 (n - 8)))
  else rgbCode n v
def chromaCode (limited : Bool) (n v : Nat) : Nat :=
  if limited then codeN n ((((Val.ofInt 224).mul (ofFp32 v)).add (Val.ofInt 128)).mul (.fin false 1 (n - 8)))
  else codeN n (((Val.ofInt (2 ^ n - 1)).mul (ofFp32 v)).add (.fin false 1 (n - 1)))

/-- Bytes filled with zeros up to a multiple of `n`. -/
def padTo (n : Nat) (bs : List Byte) : List Byte := bs ++ List.replicate (ceilDiv bs.length n * n - bs.length) 0

/-- A plane of rows, each on a 64-byte boundary (R212). -/
def plane (rows : List (List Byte)) : List Byte := rows.flatMap (padTo 64)

/-- A picture output's bytes (R210, R212). DESIGN CHOICE (log 39). -/
def BeCfg.picture (c : BeCfg) (im : Image) (o : Nat) : List Byte :=
  let w := c.outW o
  let hgt := c.outH o
  let lim := c.limited o
  let fmt := c.format o
  let ycc : Image := im.map (fun r => r.map (toYcc (c.colour o)))
  let n := if fmt = 0x32 then 10 else 8
  let put (code : Nat) : List Byte := if fmt = 0x32 then leBytes 2 (code * 64) else leBytes 1 code
  let luma := (List.range hgt).map (fun y => (List.range w).flatMap (fun x => put (lumaCode lim n (pix ycc y x 0))))
  let chroma (y x ch : Nat) : Nat :=
    if fmt = 0x31 ∨ fmt = 0x33 then meanOf [pix ycc y (2 * x) ch, pix ycc y (2 * x + 1) ch]
    else meanOf [pix ycc (2 * y) (2 * x) ch, pix ycc (2 * y) (2 * x + 1) ch, pix ycc (2 * y + 1) (2 * x) ch, pix ycc (2 * y + 1) (2 * x + 1) ch]
  let ch2 (rows : Nat) : List (List Byte) := (List.range rows).map (fun y => (List.range (w / 2)).flatMap (fun x =>
    put (chromaCode lim n (chroma y x 1)) ++ put (chromaCode lim n (chroma y x 2))))
  let rgb (f : List Nat → List Byte) : List (List Byte) := im.map (fun r => r.flatMap f)
  let b (p : List Nat) (k : Nat) : List Byte := leBytes 1 (rgbCode 8 (p.getD k 0))
  match fmt with
  | 0x30 => plane luma ++ plane (ch2 (hgt / 2))
  | 0x32 => plane luma ++ plane (ch2 (hgt / 2))
  | 0x31 => plane luma ++ plane (ch2 hgt)
  | 0x33 => plane ((List.range hgt).map (fun y => (List.range (w / 2)).flatMap (fun x =>
      put (lumaCode lim 8 (pix ycc y (2 * x) 0)) ++ put (chromaCode lim 8 (chroma y x 1)) ++
      put (lumaCode lim 8 (pix ycc y (2 * x + 1) 0)) ++ put (chromaCode lim 8 (chroma y x 2)))))
  | 0x34 => plane (rgb (fun p => b p 0 ++ b p 1 ++ b p 2))
  | 0x35 => plane (rgb (fun p => b p 0 ++ b p 1 ++ b p 2 ++ [0xFF]))
  | 0x36 => plane (rgb (fun p => b p 2 ++ b p 1 ++ b p 0 ++ [0xFF]))
  | 0x37 => plane luma
  | _ => []

/-- Extremes of a channel over an image (R211). -/
def spreadOf (im : Image) (c : Nat) : Nat × Nat :=
  let vs := im.flatMap (fun r => r.map (fun p => ofFp32 (p.getD c 0)))
  (fp32 (minVal vs), fp32 (maxVal vs))

/-- A tensor output (R211): its bytes, elements that saturated, and channels of zero spread. `prev` holds MIN and MAX of the previous frame. -/
def BeCfg.tensor (c : BeCfg) (im : Image) (o : Nat) (prev : List (Nat × Nat)) : List Byte × Nat × Nat :=
  let norm := c.outF o 3 1
  let fmt : Fmt := match c.format o with | 0x38 => .int8 | 0x39 => .fp16 | 0x3A => .bf16 | _ => .fp32
  let range (ch : Nat) : Nat × Nat :=
    if norm = 2 then (leAt c.norm (4 * ch) 4, leAt c.norm (16 + 4 * ch) 4)
    else
      let p := prev.getD ch (0, 0x3F80_0000)
      (p.1, fp32 ((ofFp32 p.2).add (ofFp32 p.1).negate))
  let zero (ch : Nat) : Bool := norm != 0 &&
    (if norm = 2 then (ofFp32 (range ch).2).isZero else let p := prev.getD ch (0, 0x3F80_0000); (ofFp32 p.1).eq (ofFp32 p.2))
  let value (y x ch : Nat) : Conv :=
    let v := ofFp32 (pix im y x ch)
    let yv : Nat :=
      if norm = 0 then pix im y x ch
      else if zero ch then 0
      else if norm = 2 then fdiv (v.add (ofFp32 (range ch).1).negate) (ofFp32 (range ch).2)
      else
        let p := prev.getD ch (0, 0x3F80_0000)
        fdiv (v.add (ofFp32 p.1).negate) ((ofFp32 p.2).add (ofFp32 p.1).negate)
    if fmt = .int8 then conv .int8 ((ofFp32 yv).mul (ofFp32 (leAt c.norm 0x20 4))) else conv fmt (ofFp32 yv)
  let e := fmt.width / 8
  let vals := (List.range (c.outH o)).map (fun y => (List.range (c.outW o)).map (fun x => (List.range 3).map (value y x)))
  let sats := vals.foldl (fun n r => r.foldl (fun n p => p.foldl (fun n v => n + b2n v.sat) n) n) 0
  let bytes :=
    if c.outF o 1 1 = 0x11 then
      (List.range 3).flatMap (fun ch => padTo 4096 (plane (vals.map (fun r => r.flatMap (fun p => leBytes e ((p.getD ch ⟨0, false, false⟩).code))))))
    else plane (vals.map (fun r => r.flatMap (fun p => p.flatMap (fun v => leBytes e v.code))))
  (bytes, sats, ((List.range 3).filter zero).length)

/-- The mosaic's demosaic (R208): `v` gives FP32 codes with folded indices, `site` the colour class 0 R, 1 Gr, 2 Gb, 3 B. -/
def greenAt (v : Int → Int → Nat) (y x : Int) : Nat :=
  let f (a b : Int) : Val := ofFp32 (v a b)
  let two := Val.ofInt 2
  let half (a : Val) : Val := a.mul (.fin false 1 (-1))
  let lh := rnd (((two.mul (f y x)).add (f y (x - 2)).negate).add (f y (x + 2)).negate)
  let lv := rnd (((two.mul (f y x)).add (f (y - 2) x).negate).add (f (y + 2) x).negate)
  let dh := rnd (((f y (x - 1)).add (f y (x + 1)).negate).abs.add (ofFp32 lh).abs)
  let dv := rnd (((f (y - 1) x).add (f (y + 1) x).negate).abs.add (ofFp32 lv).abs)
  let eh := rnd ((half ((f y (x - 1)).add (f y (x + 1)))).add ((ofFp32 lh).mul (.fin false 1 (-2))))
  let ev := rnd ((half ((f (y - 1) x).add (f (y + 1) x))).add ((ofFp32 lv).mul (.fin false 1 (-2))))
  if (ofFp32 dh).lt (ofFp32 dv) then eh
  else if (ofFp32 dv).lt (ofFp32 dh) then ev
  else rnd (half ((ofFp32 eh).add (ofFp32 ev)))

/-- The R, G, B of every site of a Bayer mosaic of `h × w` values (R208). -/
def demosaic (mosaic : Nat → Nat → Nat) (site : Nat → Nat → Nat) (h w : Nat) : Image :=
  let fy (y : Int) : Nat := fold y h
  let fx (x : Int) : Nat := fold x w
  let v (y x : Int) : Nat := mosaic (fy y) (fx x)
  let s (y x : Int) : Nat := site (fy y) (fx x)
  let green (y x : Int) : Nat := if s y x = 0 ∨ s y x = 3 then greenAt v (fy y : Nat) (fx x : Nat) else v y x
  let exactMean (ps : List (Int × Int)) : Nat :=
    rnd ((ps.foldl (fun a p => a.add ((ofFp32 (v p.1 p.2)).add (ofFp32 (green p.1 p.2)).negate)) Val.zero).mul
      (.fin false 1 (-(ps.length.log2 : Int))))
  let near (y x : Int) (want : Nat) : Nat :=
    if s y x = want then v y x
    else
      let g := green y x
      let ps := if s y x = 1 ∨ s y x = 2 then
          (if s y (x + 1) = want then [(y, x - 1), (y, x + 1)] else [(y - 1, x), (y + 1, x)])
        else [(y - 1, x - 1), (y - 1, x + 1), (y + 1, x - 1), (y + 1, x + 1)]
      fadd g (exactMean ps)
  (List.range h).map (fun (y : Nat) => (List.range w).map (fun (x : Nat) =>
    [near (y : Int) (x : Int) 0, green (y : Int) (x : Int), near (y : Int) (x : Int) 3]))

end Sys2Proof.Machine
end

