-- ==== Sys2Proof/Machine/Camera.lean ====
section
/-! DEFINITION. Machine/Camera.lean: camera ports, parameter sets and the raw front end (R173-R195, R197, R198). -/

namespace Sys2Proof.Machine

open Sys2Proof

/-! ## Cameras, pipelines and their channels -/

/-- A pipeline. -/
def State.pipe (s : State) (n : Nat) : Pipeline := s.pipes.getD n Pipeline.idle

/-- A pipeline changed. -/
def State.onPipe (s : State) (n : Nat) (f : Pipeline → Pipeline) : State :=
  if h : n < 4 then { s with pipes := s.pipes.set n (f s.pipes[n]) } else s

/-- The in-line camera of a pipeline. -/
def State.inlineCam (s : State) (n : Nat) : Option Nat := (List.range 16).find? (fun c => s.camDest c == some (n, 0))

/-- A register cell of a camera and of a pipeline. -/
def rCam (c off : Nat) : Nat := blkCam c + off
def rPp (n off : Nat) : Nat := blkPp n + off

/-- The entry of a camera's channel. -/
def State.camEnt (s : State) (c : Nat) : Entry :=
  match s.camChan c with | some i => (s.chan i).ent | none => Entry.unused

/-- The row channel of a pipeline, port 0x30. -/
def State.rowEnt (s : State) (n : Nat) : Option Entry := (s.chanFrom 0x02 n 0x30).map (fun i => (s.chan i).ent)

/-- A frame's configuration. -/
def State.feCfg (s : State) (n c : Nat) (f : Frame) : FeCfg := Machine.feCfg f.sets f.statics (s.camEnt c) (s.rowEnt n)

/-- A field of a camera's group 0 in effect. -/
def Camera.port (c : Camera) (off n : Nat) : Nat := leAt ((setBlock c.sets 0).getD []) off n

/-- Whether a camera has a port configuration. -/
def Camera.configured (c : Camera) : Bool := (setBlock c.sets 0).isSome

/-- Whether a frame has closed: every exposure of it has (R178). -/
def Frame.closed (f : Frame) : Bool := f.exps.all (fun e => e.phase == 2)

/-! ## Parameter sets (R180, R205) -/

/-- The bytes of a group's block: front end, and back end. -/
def groupBytes (back : Bool) (g : Nat) : Nat :=
  if back then (if g = 2 then 24576 else if g = 3 then 6144 else 64)
  else if g = 1 then 32768 else if g = 2 then 256 else 64

/-- Whether a table of 1,024 knots breaks R182. -/
def badTable (b : List Byte) (base : Nat) : Bool :=
  (knot b base 0).1 != 0 || (List.range 1023).any (fun i => decide ((knot b base (i + 1)).1 ≤ (knot b base i).1))

/-- Whether a camera port runs as C-PHY (its TOPOLOGY PARAM). -/
def State.cPhy (s : State) (c : Nat) : Bool :=
  match s.stream.bind (fun st => st.units.find? (fun u => field u.unit 8 14 == 0x100 + c)) with
  | some u => u.param == 1
  | none => false

/-- Whether a front-end set breaks a rule of its group's table (R180, R186). DESIGN CHOICE (log 38). -/
def State.badFront (s : State) (c g : Nat) (b : List Byte) : Bool :=
  let f (off n : Nat) : Nat := leAt b off n
  let e := s.camEnt c
  let exps := (s.cam c).port 3 1
  let inline := match s.camDest c with | some d => d.2 == 0 | none => true
  let lay := match (s.camDest c).bind (fun d => s.rowEnt d.1) with | some r => some r.layout | none => none
  let layBad (sep : Bool) : Bool := match lay with | some l => (l == 3) != sep | none => false
  match g with
  | 0 =>
    decide (15 < f 0 1) || !isRawType (f 1 1) || f 1 1 != rawType e.elemFormat || decide (1 < f 2 1) || f 3 1 == 0 ||
    decide (4 < f 3 1) || (f 2 1 == 0 && f 3 1 != 1) || decide (15 < f 0 1 + f 3 1 - 1) ||
    !([1, 2, 4].contains (f 4 1)) || decide (3 < f 5 1) ||
    (f 6 1 != 0xFF && !(match s.claimOf 0x01 (f 6 1) with | some k => k.mode == 2 | none => false)) ||
    !((if s.cPhy c then [1, 2, 3] else [1, 2, 4]).contains (f 7 1)) || f 0x1C 4 == 0 || decide (1000000 < f 0x1C 4) ||
    (List.range 16).any (fun k => decide (k / 4 < f 4 1) && decide (k % 4 < f 4 1) && decide (6 < field (f 0x20 8) (4 * k) 4)) ||
    (if inline then !zeroAt b 0x28 13 else f 0x34 1 < 2 || decide (16 < f 0x34 1) || f 0x30 4 % 4096 != 0) ||
    !zeroAt b 0x35 11 || e.width % max 1 (f 4 1) != 0 || e.height % max 1 (f 4 1) != 0
  | 1 => (List.range 4).any (fun e => if e < max 1 exps then badTable b (8192 * e) else !zeroAt b (8192 * e) 8192)
  | 3 => decide (8192 < f 8 4) || !zeroAt b 0x10 48
  | 4 =>
    f 0 4 != 0x3F80_0000 || decide (1 < f 0x3F 1) || layBad (f 0x3F 1 == 1) ||
    (List.range (max 1 exps)).any (fun e => !(Val.zero.lt (ofFp32 (f (16 * e + 8) 4))))
  | 5 => !zeroAt b 8 56
  | 6 =>
    (List.range 4).any (fun h => decide (7 < f h 1) && f h 1 != 0xFF) || decide (1 < f 4 1) || decide (1 < f 6 1) ||
    decide (3 < f 7 1) || f 0x0C 1 == 0 || decide (32 < f 0x0C 1) || f 0x0D 1 == 0 || decide (24 < f 0x0D 1) || !zeroAt b 0x18 40
  | _ => false

/-- Whether a picture format is subsampled across, or down. -/
def halfWide (fmt : Nat) : Bool := [0x30, 0x31, 0x32, 0x33].contains fmt
def halfHigh (fmt : Nat) : Bool := [0x30, 0x32].contains fmt

/-- Whether a back-end set breaks a rule (R205, R212). DESIGN CHOICE (log 38). -/
def State.badBack (s : State) (c g : Nat) (b : List Byte) : Bool :=
  let f (off n : Nat) : Nat := leAt b off n
  let slot := match s.camDest c with | some d => d.2 | none => 0
  let n := match s.camDest c with | some d => d.1 | none => 0
  let k : BeCfg := ⟨b, none, none, none, []⟩
  let out (o : Nat) : Bool :=
    let fmt := k.format o
    let cr := k.crop o
    let tensor := decide (0x38 ≤ fmt)
    let isCore := match s.chanFrom 0x03 n (0x30 + 3 * slot + o) with | some i => (s.chan i).ent.kind == 0x02 | none => false
    fmt != 0 && (decide (fmt < 0x30) || decide (0x3B < fmt) || decide (2 < k.outF o 3 1) ||
      decide (cr.2.2.1 < k.outW o) || decide (16 * k.outW o < cr.2.2.1) || decide (cr.2.2.2 < k.outH o) ||
      decide (16 * k.outH o < cr.2.2.2) || k.outW o == 0 || k.outH o == 0 ||
      (halfWide fmt && k.outW o % 2 == 1) || (halfHigh fmt && k.outH o % 2 == 1) ||
      decide (k.inW < cr.1 + cr.2.2.1) || decide (k.inH < cr.2.1 + cr.2.2.2) ||
      (tensor && !([0x10, 0x11, 0x12].contains (k.outF o 1 1))) || (isCore && !tensor) ||
      ((halfWide fmt || fmt == 0x37) && k.colour o == 0))
  let cfaOk := (s.cam c).port 4 1 == 2 &&
    (let m := (s.cam c).port 0x20 8
     let l := [field m 0 4, field m 4 4, field m 16 4, field m 20 4]
     [0, 1, 2, 3].all (fun x => l.contains x))
  let lay2 := match s.rowEnt n with | some r => r.layout == 2 | none => true
  match g with
  | 0 =>
    decide (1 < f 0 1) || decide (f 0 1 + f 1 1 ≠ 1) || !zeroAt b 6 2 || !zeroAt b 0x38 8 ||
    (f 0 1 == 0 && (!cfaOk || !lay2)) || (List.range 3).any out
  | 1 => !zeroAt b 0x30 16
  | 2 => (List.range 3).any (fun i => badTable b (8192 * i))
  | 3 => (List.range 6).any (fun d => (List.range 64).any (fun p =>
      ((List.range 8).foldl (fun (a : Int) t => a + signed 16 (leAt b (1024 * d + 16 * p + 2 * t) 2)) 0) != 16384))
  | 4 => !zeroAt b 0x0C 4 || !zeroAt b 0x1C 4 || !zeroAt b 0x24 28
  | _ => true

/-- Pending sets that a frame start takes: late ones and those whose target has come; for each group the one with the latest target. DESIGN CHOICE (log 38). -/
def dueSets (sets : List (Option PSet)) (pending : List Pending) (frame epoch : Nat) (which : Nat → Bool) :
    List (Option PSet) × List Pending × Bool :=
  let due := pending.filter (fun p => which p.group && (p.late || frameLe p.frame p.epoch frame epoch))
  let keep := pending.filter (fun p => !(which p.group && (p.late || frameLe p.frame p.epoch frame epoch)))
  let best (g : Nat) : Option Pending :=
    (due.filter (fun p => p.group == g)).foldl (fun a p => match a with
      | none => some p
      | some q => if frameLe q.frame q.epoch p.frame p.epoch then some p else some q) none
  (sets.mapIdx (fun g x => match best g with | some p => some ⟨p.setId, p.data⟩ | none => x), keep, due.any (·.late))

/-- PP_PARAM's and PP_BPARAM's target frame (R180): explicit, or the recorded reference plus DELAYS[GROUP]; with no reference recorded
the reference is a free value. DESIGN CHOICE (log 38). -/
def State.paramTarget (s : State) (o : ParamOps) : Nat × Nat × State :=
  if o.mode = 0 then (o.frame, o.epoch, s)
  else
    let d := field ((s.cam o.camera).port 0x0C 4) (3 * o.group) 3
    match look none (s.cam o.camera).refs o.group with
    | some r => let x := addFrames r.1 r.2 d; (x.1, x.2, s)
    | none => let x := s.fresh; let y := addFrames (x.1 % 2 ^ 32) 0 d; (y.1, y.2, x.2)

/-- The open frame of a number takes a set whose copy had completed before the frame's start tick (R180). -/
def Camera.takeNow (k : Camera) (g : Nat) (t : Nat × Nat) (x : PSet) : Camera :=
  { k with sets := k.sets.set g (some x)
           frames := k.frames.map (fun f => if f.number == t.1 && f.epoch == t.2 && f.row == 0 then { f with sets := f.sets.set g (some x) } else f) }

/-- A copied set made pending, or put in effect, or refused (R180). A set is late when its target frame has started, at a tick not after this one. -/
def State.placeSet (s : State) (n : Nat) (back : Bool) (o : ParamOps) (b : List Byte) (unread : Bool) : State :=
  let bad := unread || (if back then s.badBack o.camera o.group b else s.badFront o.camera o.group b)
  if bad then s.count (rPp n 0x418) 1
  else
    let t := s.paramTarget o
    let s := t.2.2
    let k := s.cam o.camera
    let soon := !back && k.started && k.number == t.1 && k.epoch == t.2.1 && decide (s.now < k.fsTick)
    let late := !soon && (if back then (match k.back with | some x => frameLe t.1 t.2.1 x.1 x.2 | none => false)
      else k.started && frameLe t.1 t.2.1 k.number k.epoch)
    let isOpen := k.frames.any (fun f => !f.closed)
    if !back && o.group = 0 && !isOpen then
      (s.count (rPp n 0x410) (b2n late)).onCam o.camera (fun k => { k with sets := k.sets.set 0 (some ⟨o.setId, b⟩), lateNext := k.lateNext || late })
    else if soon && o.group != 0 then s.onCam o.camera (fun k => k.takeNow o.group (t.1, t.2.1) ⟨o.setId, b⟩)
    else
      let p : Pending := ⟨o.group, t.1, t.2.1, o.setId, b, late, s.now⟩
      let old := if back then k.bpending else k.pending
      let same (q : Pending) : Bool := q.group == o.group && q.frame == t.1 && q.epoch == t.2.1
      let new := old.filter (fun q => !same q) ++ [p]
      let s := if old.any same then s.count (rPp n 0x414) 1 else s
      let s := if late then s.count (rPp n 0x410) 1 else s
      s.onCam o.camera (fun k => if back then { k with bpending := new } else { k with pending := new })

/-- Bytes of a block read for a command, page by page, from where the engine stands (R134). Answers whether all are there. -/
def State.readBlock : Nat → State → Holder → Nat → Nat → Bool × State
  | 0, s, _, _, _ => (false, s)
  | k + 1, s, h, va, n =>
    let m := s.mover h
    let got := m.buf.length
    if n ≤ got then (true, s)
    else
      let a := va + got
      let len := min (n - got) (4096 - a % 4096)
      match s.readVirt h 0xFFFF a len [0, 0, 0, 0, 0] with
      | (.stopped, _, _, s1) => (false, s1)
      | (_, bs, bad, s1) =>
        let m1 := s1.mover h
        (s1.setMover h { m1 with buf := m1.buf ++ bs, poisoned := m1.poisoned || bad }).readBlock k h va n

/-- The pipeline of a FRONT or BACK queue. -/
def pipeOf : UnitId → Nat
  | .front n => n
  | .back n => n
  | _ => 0

/-- PP_PARAM and PP_BPARAM go on (R180, R205): they wait for a free slot of the camera and group, copy the block, and settle it. -/
def State.runParam (s : State) (h : Holder) (back : Bool) (o : ParamOps) : State :=
  let k := s.cam o.camera
  let used := ((if back then k.bpending else k.pending).filter (fun p => p.group == o.group)).length
  if 4 ≤ used then s.setMover h { s.mover h with stall := .slot }
  else
    let n := groupBytes back o.group
    match (s.setMover h { s.mover h with stall := .none }).readBlock 10 h o.addr n with
    | (false, s1) => s1
    | (true, s1) =>
      let m := s1.mover h
      (s1.placeSet (pipeOf h.queue.unit) back o m.buf m.poisoned).worked h

/-- PP_PARAM (R180): the work of one command. -/
def ppParamWork (o : ParamOps) (h : Holder) (s : State) : State := s.runParam h false o

/-- PP_BPARAM (R205): the work of one command. -/
def ppBParamWork (o : ParamOps) (h : Holder) (s : State) : State := s.runParam h true o

/-- PP_BAND (R198): the setting waits for the camera's first frame start after the command completes. -/
def ppBandWork (_ : BandOps) (h : Holder) (s : State) : State :=
  s.worked h

/-! ## Tokens of a pipeline -/

/-- A formed token issued: its credit is spent and it is sent with its frame's number (R17, R24). -/
def State.issueTok (s : State) (t : OutTok) (shedAt : Nat) : State :=
  (s.onChan t.chan Chan.spend).send t.chan t.marks (some (t.frame, t.epoch)) t.ts t.data t.digested shedAt

/-- Tokens issued from the front of a list while credits last. -/
def State.drainToks : State → List OutTok → Nat → State × List OutTok
  | s, [], _ => (s, [])
  | s, t :: ts, shedAt =>
    if (s.chan t.chan).canSend then (s.issueTok t shedAt).drainToks ts shedAt else (s, t :: ts)

/-- The passes of a frame that hold an output row: channel, first row and end of the pass (R197). -/
def State.rowPasses (s : State) (n slot : Nat) (b : Option Band) (rows row : Nat) : List (Nat × Nat × Nat) :=
  let whole := match s.chanFrom 0x02 n 0x30 with | some i => [(i, 0, rows)] | none => []
  let bands := match b with
    | none => []
    | some b =>
      (List.range (ceilDiv rows (max 1 b.rows))).filterMap (fun k =>
        let lo := k * b.rows - b.halo
        let hi := min rows ((k + 1) * b.rows + b.halo)
        if lo ≤ row ∧ row < hi then
          (s.chanFrom 0x02 n (0x40 + 6 * slot + k % max 1 b.cores)).map (fun i => (i, lo, hi))
        else none)
  whole ++ bands

/-- The token that an output row completes in a pass, if it does: TOKEN_ROWS rows, the last completed with zero bytes (R197). -/
def State.rowToken (s : State) (c : FeCfg) (f : Frame) (pad row : Nat) (p : Nat × Nat × Nat) : Option OutTok :=
  let e := (s.chan p.1).ent
  let tr := max 1 e.tokenRows
  let idx := row - p.2.1
  if (idx + 1) % tr = 0 ∨ row + 1 = p.2.2 then
    let first := p.2.1 + idx / tr * tr
    let rows := (List.range (row + 1 - first)).map (first + ·)
    let ls := f.exps.map (·.lines)
    let mk := rows.map (c.rowMarks ls pad)
    let data := slice (rows.flatMap (c.rowBytes ls pad)) 0 e.tokenBytes
    let marks : Marks := ⟨idx / tr == 0, row + 1 == p.2.2, mk.any (·.1), mk.any (·.2.1), mk.any (·.2.2), false⟩
    some ⟨p.1, marks, f.number, f.epoch, f.fs, data, data⟩
  else none

/-- The tokens of a camera channel for a whole frame, TOKEN_ROWS lines each, line by line with exposures in turn, entered in the
channel's entry and digest (R32); its credits return as the front end takes them. -/
def State.recordCamera (s : State) (c : Nat) (f : Frame) : State :=
  match s.camChan c with
  | none => s
  | some i =>
    let e := (s.chan i).ent
    let tr := max 1 e.tokenRows
    let ls := f.exps.map (·.lines)
    let lns := (List.range e.height).flatMap (fun y => ls.filterMap (fun l => l[y]?))
    let count := ceilDiv lns.length tr
    (List.range count).foldl (fun s k =>
      let part := (lns.drop (k * tr)).take tr
      let data := slice (part.flatMap (fun l => packLine e.elemFormat l.codes)) 0 e.tokenBytes
      let marks : Marks := ⟨k == 0, k + 1 == count, part.any (fun l => decide (l.valid < e.width)), part.any (·.flagged), false, false⟩
      s.onChan i (fun x => x.record marks (some (f.number, f.epoch)) f.fs data)) s

/-! ## Records (R187, R188) -/

/-- The tokens of a record, one pass. -/
def recordToks (i : Nat) (e : Entry) (f : Frame) (poisoned : Bool) (data digested : List Byte) : List OutTok :=
  let tb := max 1 e.tokenBytes
  let n := max 1 (ceilDiv data.length tb)
  (List.range n).map (fun k =>
    ⟨i, ⟨k == 0, k + 1 == n, false, f.flagged, poisoned, false⟩, f.number, f.epoch, f.fs, slice data (k * tb) tb, slice digested (k * tb) tb⟩)

/-- A record placed behind those that wait at a port; with two waiting, the oldest that has not begun is dropped and counts in DROPPED. -/
def State.queueRecord (s : State) (n port : Nat) (f : Frame) (poisoned : Bool) (data digested : List Byte) : State :=
  match s.chanFrom 0x02 n (0x31 + port) with
  | none => s
  | some i =>
    let q := (s.pipe n).recq.getD port []
    let new := recordToks i (s.chan i).ent f poisoned data digested
    let begun := match q with | (t :: _) :: _ => !t.marks.frameStart | _ => false
    let hold := if begun then q.take 1 else []
    let wait := if begun then q.drop 1 else q
    let set (q : List (List OutTok)) (s : State) : State := s.onPipe n (fun p => { p with recq := p.recq.set port q })
    if 2 ≤ wait.length then
      (set (hold ++ wait.drop 1 ++ [new]) s).onChan i (fun x => { x with ent := x.ent.addDropped 1 })
    else set (q ++ [new]) s

/-- `k` tokens taken from the front of a list of records. -/
def dropToks {α : Type} : Nat → List (List α) → List (List α)
  | _, [] => []
  | k, ts :: rest => if ts.length ≤ k then dropToks (k - ts.length) rest else ts.drop k :: rest

/-- Records issued while credits last, each port in turn. -/
def State.drainRecords (s : State) (n : Nat) : State :=
  (List.range 4).foldl (fun s port =>
    let q := (s.pipe n).recq.getD port []
    let r := s.drainToks q.flatten (cShedDrop (.front ⟨n % 4, Nat.mod_lt _ (by decide)⟩))
    let left := dropToks (q.flatten.length - r.2.length) q
    r.1.onPipe n (fun p => { p with recq := p.recq.set port left })) s

/-- The first eight bytes of a histogram or zone record of which `sats` bins, counts and sums saturated (R187). -/
def Frame.statHead (f : Frame) (c sats : Nat) : List Byte :=
  leBytes 4 f.number ++ leBytes 2 f.epoch ++ leBytes 1 c ++ leBytes 1 (b2n (decide (0 < sats)) + 2 * b2n f.short + 4 * b2n f.long + 8 * b2n f.flagged)

/-- The records of a closed frame: histogram, zones, frame record, and user-defined data (R187, R188). -/
def State.emitRecords (s : State) (n c : Nat) (f : Frame) : State :=
  let k := s.feCfg n c f
  let e := s.camEnt c
  let ls := f.exps.map (·.lines)
  let st := k.statistics ls e.padValue
  let head (sats : Nat) : List Byte := f.statHead c sats
  let poisoned := f.exps.any (fun x => x.lines.any (·.poisoned))
  let s := s.count (rPp n 0x428) (st.2.2.1 + st.2.2.2)
  let s := s.queueRecord n 0 f poisoned (head st.2.2.1 ++ st.1) (head st.2.2.1 ++ st.1)
  let s := s.queueRecord n 1 f poisoned (head st.2.2.2 ++ st.2.1) (head st.2.2.2 ++ st.2.1)
  let s := s.queueRecord n 2 f false (f.record c e.width e.height (f.fs, f.fe, f.trig)) (f.record c e.width e.height (0, 0, 0))
  let s := if (leAt ((setBlock f.sets 0).getD []) 5 1).testBit 1 then s.queueRecord n 3 f false f.user f.user else s
  s.drainRecords n

/-! ## Frames (R174-R178, R194, R195) -/

/-- The effective latency-corrected tick of a camera event (R176). -/
def State.camTick (s : State) (c tick : Nat) : Nat :=
  unsigned 64 ((tick : Int) + signed 16 (s.regField (rCam c 0x040) 0 16))

/-- The static defects that group 3 names, read at a frame start; a list that cannot be read whole is left out. -/
def State.staticList (s : State) (b : List Byte) : List (Nat × Nat) × State :=
  let n := leAt b 8 4
  if n = 0 then ([], s)
  else
    let r := s.virtRead (leAt b 0 8) (4 * n)
    (if r.2.1 then [] else (List.range n).map (fun i => (leAt r.1 (4 * i + 2) 2, leAt r.1 (4 * i) 2)), r.2.2)

/-- The frames of a camera's channel dropped by its port: DROPPED (R194). -/
def State.dropFrameOf (s : State) (c : Nat) : State :=
  match s.camChan c with
  | some i => s.onChan i (fun x => { x with ent := x.ent.addDropped 1 })
  | none => s

/-- A ring slot for a new frame of a memory-fed camera (R194): a free one, or that of the oldest complete frame not started,
which is dropped; none when every slot is filling or in progress. DESIGN CHOICE (log 37). -/
def State.takeSlot (s : State) (c n : Nat) : Option Nat × State :=
  let k := s.cam c
  let slots := k.port 0x34 1
  let busy := (match (s.pipe n).fed with | some (c', f) => if c' = c then [f.slot] else [] | none => []) ++ k.frames.map (·.slot)
  match (List.range slots).find? (fun i => !busy.contains i) with
  | some i => (some i, s)
  | none =>
    let s1 := (s.count (rCam c 0x020) 1).dropFrameOf c
    match k.frames.find? (fun f => f.closed) with
    | some f => (some f.slot, s1.onCam c (fun k => { k with frames := k.frames.filter (fun g => g.slot != f.slot) }))
    | none => (none, s1)

/-- An exposure closed (R177, R178): pad lines to HEIGHT. -/
def Exposure.close (x : Exposure) (e : Entry) (fed : Bool) : Exposure :=
  if x.phase = 2 then x
  else
    let n := e.height - x.lines.length
    let p := padLine e.elemFormat e.width e.padValue true
    { x with phase := 2, pad := x.pad + n, lines := x.lines ++ List.replicate n (if fed then { p with codes := [] } else p) }

/-- An exposure of a frame closed, with its cause; a frame whose exposures have all closed takes FE_TICK and its flags count once. -/
def State.closeExp (s : State) (c slotIdx e tick : Nat) (missing timeout : Bool) : State :=
  match (s.cam c).frames[slotIdx]? with
  | none => s
  | some f =>
    match f.exps[e]? with
    | none => s
    | some x =>
      if x.phase = 2 then s
      else
        let ent := s.camEnt c
        let y := x.close ent f.memFed
        let short := f.short || decide (x.lines.length < ent.height)
        let f1 := { f with exps := f.exps.set e y, short := short, feMissing := f.feMissing || missing, timeout := f.timeout || timeout }
        let f2 := if f1.closed then { f1 with fe := tick } else f1
        let s := s.onCam c (fun k => { k with frames := k.frames.set slotIdx f2 })
        let s := if missing || timeout then s.count (rCam c 0x02C) 1 else s
        if f2.closed then
          let s := if f2.short then s.count (rCam c 0x018) 1 else s
          let s := if f2.long then s.count (rCam c 0x01C) 1 else s
          let nx := addFrames f2.number f2.epoch 1
          s.onCam c (fun k =>
            let d := dueSets k.sets k.pending nx.1 nx.2 (· == 0)
            { k with sets := d.1, pending := d.2.1, lateNext := k.lateNext || d.2.2 })
        else s

/-- The frames of a camera in which an exposure is open, by position. -/
def Camera.openAt (k : Camera) (e : Nat) : Option Nat :=
  k.frames.findIdx? (fun f => match f.exps[e]? with | some x => x.phase == 1 | none => false)

/-- The exposure that a virtual channel carries (R174). -/
def Camera.exposureOf (k : Camera) (vc : Nat) : Option Nat :=
  let v := k.port 0 1
  if v ≤ vc ∧ vc - v < k.port 3 1 then some (vc - v) else none

/-- A new frame of a camera opened by the frame start of exposure 0 (R175, R176, R180, R192, R194, R198). A set whose copy completed at the frame's start tick or
later is late, and waits for the next frame. -/
def State.openFrame (s : State) (c fn tick ecc : Nat) : State :=
  let k := s.cam c
  let fs := s.camTick c tick
  let d := frameAdvance fn k.fsPrev (k.port 8 2)
  let num := if k.started then addFrames k.number k.epoch d else (0, k.epoch)
  let skip := if k.started then d - 1 else 0
  let tight := k.started && decide (fs - k.fsTick < k.port 0x10 8)
  let past := k.pending.filter (fun p => !p.late && decide (fs ≤ p.done) && frameLe p.frame p.epoch num.1 num.2)
  let early := k.pending.filter (fun p => !past.contains p)
  let taken := dueSets k.sets early num.1 num.2 (fun _ => true)
  let left := taken.2.1 ++ past.map (fun p => { p with late := true })
  let s := s.count (rPp ((s.camDest c).getD (0, 0)).1 0x410) past.length
  let band := match k.bandNext with | some b => some b | none => k.band
  let pin := leAt ((setBlock taken.1 0).getD []) 6 1
  let acts := (look [] s.trigs pin).filter (fun t => pin != 0xFF && decide (t ≤ fs) && (!k.started || decide (k.fsTick < t)))
  let trig := acts.foldl max 0
  let s := s.onCam c (fun k => { k with
    sets := taken.1, pending := left, started := true, number := num.1, epoch := num.2, fsPrev := fn, fsTick := fs,
    tight := tight, band := band, bandNext := none, closed := false, lateNext := false
    starts := (fs, num.1, num.2) :: (k.starts.takeWhile (fun x => decide (s.now < x.1)) ++ (k.starts.dropWhile (fun x => decide (s.now < x.1))).take 1) })
  let s := s.count (rCam c 0x034) skip
  let dest := (s.camDest c).getD (0, 0)
  let fed := decide (dest.2 ≠ 0)
  let slot := if fed then s.takeSlot c dest.1 else (some 0, s)
  let s := slot.2
  match slot.1 with
  | none => s.onCam c (fun k => { k with closed := true })
  | some i =>
    let st := match setBlock taken.1 3 with | some b => s.staticList b | none => ([], s)
    let s := st.2
    let exps := (List.range (max 1 (leAt ((setBlock taken.1 0).getD []) 3 1))).map (fun e =>
      if e = 0 then { Exposure.none with phase := 1, last := tick } else Exposure.none)
    let f : Frame :=
      { number := num.1, epoch := num.2, sensorFn := fn, fs := fs, fe := 0, trig := trig, skip := skip, exps := exps,
        short := false, long := false, feMissing := false, timeout := false, overrate := false, flagged := false,
        late := taken.2.2 || k.lateNext, memFed := fed, tight := tight || k.tight, cut := false, crcErr := 0, ecc := ecc, stagger := 0, dynamic := 0,
        emb := [], user := [], sets := taken.1, statics := st.1, band := band, slot := i, row := 0, outq := [] }
    s.onCam c (fun k => { k with frames := k.frames ++ [f] })

/-- Lines that a camera's port still holds for its pipeline; a dropped line takes no room (R185). -/
def State.heldLines (s : State) (n c : Nat) : Nat :=
  (s.cam c).frames.foldl (fun a f =>
    let used := (s.feCfg n c f).consumed f.row
    a + f.exps.foldl (fun b x => b + (((x.lines.take (x.rx - x.extra)).drop used).filter (·.here)).length) 0) 0

/-- The loss of the rest of an in-line frame for want of room (R195). -/
def State.cutFrame (s : State) (c i : Nat) : State :=
  match (s.cam c).frames[i]? with
  | none => s
  | some f =>
    let s1 := s.onCam c (fun k => { k with frames := k.frames.set i { f with cut := true, overrate := f.overrate || f.tight } })
    if f.tight then s1.count (rCam c 0x020) 1
    else match s1.camChan c with
      | some j => s1.dropToken j 1
      | none => s1

/-- A line of exposure `e` of a camera's open frame (R174, R177, R185, R195). -/
def State.takeLine (s : State) (c i e tick : Nat) (bs : List Byte) (crcOk : Bool) (ecc : Nat) : State :=
  match (s.cam c).frames[i]? with
  | none => s
  | some f =>
    match f.exps[e]? with
    | none => s
    | some x =>
      let ent := s.camEnt c
      let dest := (s.camDest c).getD (0, 0)
      let line := fitLine ent.elemFormat ent.width ent.padValue bs (!crcOk)
      let short := decide (line.valid < ent.width)
      let long := (rawPixel ent.elemFormat bs ent.width).isSome
      let tight := decide (x.rx ≠ 0) && decide (tick - x.lineTick < (s.cam c).port 0x18 4)
      let f := { f with crcErr := f.crcErr + b2n (!crcOk), ecc := f.ecc + ecc, flagged := f.flagged || !crcOk,
                        tight := f.tight || tight }
      let x := { x with rx := x.rx + 1, last := tick, lineTick := tick, short := x.short + b2n short, long := x.long + b2n long }
      let put (s : State) (f : Frame) (x : Exposure) : State :=
        s.onCam c (fun k => { k with tight := k.tight || tight, frames := k.frames.set i { f with exps := f.exps.set e x } })
      let s := s.count (rCam c 0x024) (b2n (!crcOk))
      if ent.height ≤ x.lines.length then put s { f with long := true } { x with extra := x.extra + 1 }
      else
        let s := (s.count (rCam c 0x010) (b2n short)).count (rCam c 0x014) (b2n long)
        let y := x.lines.length
        if f.memFed then
          let base := leAt ((setBlock f.sets 0).getD []) 0x28 8 + f.slot * leAt ((setBlock f.sets 0).getD []) 0x30 4
          let lb := lineBytes ent.elemFormat ent.width
          let s := (s.virtWrite (base + (e * ent.height + y) * lb) (packLine ent.elemFormat line.codes)).1
          put s f { x with lines := x.lines ++ [{ line with codes := [] }] }
        else if f.cut then put s f { x with rx := x.rx - 1, short := x.short - b2n short, long := x.long - b2n long }
        else if 2 ^ 21 / max 1 (lineBytes ent.elemFormat ent.width) ≤ s.heldLines dest.1 c then
          if 1 < f.exps.length then
            put (s.count (rPp dest.1 0x424) 1) { f with stagger := f.stagger + 1, flagged := true }
              { x with lines := x.lines ++ [padLine ent.elemFormat ent.width ent.padValue false] }
          else (put s f { x with rx := x.rx - 1 }).cutFrame c i
        else put s f { x with lines := x.lines ++ [line] }

end Sys2Proof.Machine
end

