-- ==== Sys2Proof/Machine/Domains.lean ====
section
/-! DEFINITION. Machine/Domains.lean: switching of power domains with loads and phases (R114, R322, R323). -/

namespace Sys2Proof.Machine

open Sys2Proof

/-- The domains in which a unit that TOPOLOGY names lies, by the numbers that the stream uses (R42, chapter 2 *Power domain numbers*). -/
def namedDomains (unit : Nat) : List Nat :=
  let i := field unit 8 8
  match field unit 16 6 with
  | 0x05 => (List.range 10).map (10 * i + ·)
  | 0x04 => [80 + i]
  | 0x02 => [60 + i]
  | 0x03 => [60 + i]
  | 0x06 => [82 + i]
  | 0x01 => [64 + i]
  | 0x08 => [90 + i / 4]
  | 0x09 => [90 + i / 2]
  | 0x0B => [95]
  | 0x0C => [94]
  | _ => []

/-- The domain of the part that a claimed domain stands for under a placement: that of the unit on which its unit is placed; none where the
placement leaves that unit unused (R42, R46). DEDUCED (log 84). -/
def claimDomain (p : Placement) (d : Nat) : Option Nat :=
  let at0 (m count f : Nat) : Option Nat := if m < count then some f else none
  if d < 60 then at0 (p.core (d / 10)) 6 (10 * p.core (d / 10) + d % 10)
  else if d < 64 then at0 (p.ppMap.getD (d - 60) 0xFF) 4 (60 + p.ppMap.getD (d - 60) 0xFF)
  else if 80 ≤ d ∧ d < 82 then at0 (p.eeMap.getD (d - 80) 0xFF) 2 (80 + p.eeMap.getD (d - 80) 0xFF)
  else if 82 ≤ d ∧ d < 90 then at0 (p.stackMap.getD (d - 82) 0xFF) 8 (82 + p.stackMap.getD (d - 82) 0xFF)
  else some d

/-- Whether a stream claims a domain, in its own records or in those of LEGAL. -/
def domainClaimed (st : Stream) (p : Placement) (d : Nat) : Bool :=
  (st.claims ++ (match st.legal with | some l => l.claims | none => [])).any (fun c => c.kind == 6 && claimDomain p c.index == some d)

/-- Whether a domain is needed in a phase (R42, R323): MODE 0 always, MODE 1 when a unit that lies in it is used. -/
def needed (st : Stream) (p : Placement) (phase d : Nat) : Bool :=
  st.claims.any (fun c => c.kind == 6 && claimDomain p c.index == some d &&
    (c.mode == 0 || st.units.any (fun u => u.phaseMask.testBit phase && (namedDomains u.unit).contains c.index))) ||
  (match st.legal with
   | some l => l.claims.any (fun c => c.kind == 6 && claimDomain p c.index == some d)
   | none => false)

/-- The domains needed in a phase of the loaded stream, less those of retired units, which `skip` lists. -/
def State.neededSet (s : State) (phase : Nat) (skip : BitVec 96) : BitVec 96 :=
  match s.stream, s.place with
  | some st, some p =>
    BitVec.ofNat 96 ((List.range 96).foldl (fun a d => if needed st p phase d then a + 2 ^ d else a) 0) &&& ~~~skip
  | _, _ => 0

/-- The core and bank group of a scratchpad domain. -/
def groupDomain (d : Nat) : Option (Fin 6 × Nat) :=
  if h : d / 10 < 6 then
    if 5 ≤ d % 10 ∧ d % 10 < 9 then some (⟨d / 10, h⟩, d % 10 - 5) else none
  else none

/-- The queue units whose counters and loop slots a domain holds: a core's sequencer, or the unit itself (R323). -/
def domainUnits (d : Nat) : List UnitId :=
  if d < 60 then (if d % 10 = 9 then (if h : d / 10 < 6 then [.tc ⟨d / 10, h⟩] else []) else [])
  else if d < 64 then [.front ⟨(d - 60) % 4, Nat.mod_lt _ (by decide)⟩, .back ⟨(d - 60) % 4, Nat.mod_lt _ (by decide)⟩]
  else if d = 80 ∨ d = 81 then [.ee ⟨(d - 80) % 2, Nat.mod_lt _ (by decide)⟩]
  else if d = 90 ∨ d = 91 then
    (List.finRange 4).map (fun k => .sp ⟨(4 * (d - 90) + k.val) % 8, Nat.mod_lt _ (by decide)⟩) ++
    (List.finRange 2).map (fun k => .eth ⟨(2 * (d - 90) + k.val) % 4, Nat.mod_lt _ (by decide)⟩)
  else if d = 92 then [.invar]
  else if d = 94 then [.time]
  else if d = 95 then (List.finRange 8).map .sctl
  else []

/-- Loop slots of a unit's queues clear and its token counters zero (R323). -/
def State.clearUnit (s : State) (u : UnitId) : State :=
  { s with
    tokens := wipe s.tokens (unitIdx u * 64) (unitIdx u * 64 + 64)
    queues := s.queues.filterMap (fun e =>
      if unitIdx u * 8 ≤ e.1 ∧ e.1 < unitIdx u * 8 + 8 then
        let v := { e.2 with slots := Vector.replicate 4 none }
        if v = QState.start then none else some (e.1, v)
      else some e) }

/-- A domain switched off: a bank group loses its contents (R114). -/
def State.switchOff (s : State) (d : Nat) : State :=
  let s := { s with power := { s.power with
    on := s.power.on &&& ~~~(BitVec.ofNat 96 (2 ^ d)), switching := s.power.switching &&& ~~~(BitVec.ofNat 96 (2 ^ d)),
    offWait := s.power.offWait &&& ~~~(BitVec.ofNat 96 (2 ^ d)) } }
  match groupDomain d with
  | some (n, g) =>
    s.onCore (coreOf (.tc n)) (fun c => { c with
      lines := wipe c.lines (196608 * g) (196608 * (g + 1))
      on := c.on &&& ~~~(BitVec.ofNat 4 (2 ^ g)), zeroing := c.zeroing &&& ~~~(BitVec.ofNat 4 (2 ^ g)) })
  | none => s

/-- A domain that starts to switch on (R323): a bank group is zero-filled before it admits any access (R114),
a unit starts with its counters and loop slots at zero. -/
def State.switchOn (s : State) (d : Nat) : State :=
  if s.power.on.getLsbD d || s.power.switching.getLsbD d then
    { s with power := { s.power with offWait := s.power.offWait &&& ~~~(BitVec.ofNat 96 (2 ^ d)) } }
  else
    let s := { s with power := { s.power with switching := s.power.switching ||| BitVec.ofNat 96 (2 ^ d) } }
    let s := (domainUnits d).foldl (fun s u => s.clearUnit u) s
    match groupDomain d with
    | some (n, g) =>
      s.onCore (coreOf (.tc n)) (fun c => { c with
        lines := wipe c.lines (196608 * g) (196608 * (g + 1)), zeroing := c.zeroing ||| BitVec.ofNat 4 (2 ^ g) })
    | none => s

/-- Whether a domain's unit has no command in progress (R323). -/
def State.idleDomain (s : State) (d : Nat) : Bool :=
  let us := if d < 60 then (if h : d / 10 < 6 then [.tc ⟨d / 10, h⟩] else []) else domainUnits d
  us.all (fun u => (unitPorts u).all (fun p => (s.queue ⟨u, p⟩).prog.isEmpty))

/-- Domains that the phase does not need switched off where their queues are idle and their writes complete (R323). -/
def State.tryOff (s : State) : State :=
  (List.range 96).foldl (fun s d => if s.power.offWait.getLsbD d && s.idleDomain d then s.switchOff d else s) s

/-- The domains of a phase taken into effect: those it needs start to switch on at once, the others wait to switch off (R323). -/
def State.phaseDomains (s : State) (phase : Nat) (skip : BitVec 96) : State :=
  let need := s.neededSet phase skip
  let s := (List.range 96).foldl (fun s d => if need.getLsbD d then s.switchOn d else s) s
  let off := s.power.on &&& ~~~need &&& ~~~(BitVec.ofNat 96 (2 ^ 93))
  ({ s with power := { s.power with offWait := s.power.offWait ||| off } }).tryOff

/-- A switched-on domain opens; a bank group opens only once it is zero-filled (R323, R114). -/
def State.domainOpen (s : State) (d : Nat) : State :=
  if s.power.switching.getLsbD d && (groupDomain d).isNone then
    { s with power := { s.power with
      on := s.power.on ||| BitVec.ofNat 96 (2 ^ d), switching := s.power.switching &&& ~~~(BitVec.ofNat 96 (2 ^ d)) } }
  else s

/-- A bank group's zero-fill ends: it admits accesses, and tokens that waited for it are written (R114). -/
def State.groupOpen (s : State) (n : Fin 6) (g : Nat) : State :=
  let d := 10 * n.val + 5 + g
  if g < 4 && s.cores[coreOf (.tc n)].zeroing.getLsbD g then
    ((({ s with power := { s.power with
      on := s.power.on ||| BitVec.ofNat 96 (2 ^ d), switching := s.power.switching &&& ~~~(BitVec.ofNat 96 (2 ^ d)) } })).onCore
      (coreOf (.tc n)) (fun c => { c with
        on := c.on ||| BitVec.ofNat 4 (2 ^ g), zeroing := c.zeroing &&& ~~~(BitVec.ofNat 4 (2 ^ g)) })).arriveAll n
  else s

end Sys2Proof.Machine
end

