-- ==== Sys2Proof/Machine/Control.lean ====
section
/-! DEFINITION. Machine/Control.lean: the control commands of queues, barriers and phases, and completion (R63-R71). -/

namespace Sys2Proof.Machine

open Sys2Proof

/-- NOP: no work (R63). -/
def nopWork (h : Holder) (s : State) : State := s.worked h

/-- LAUNCH_AT (R67): the timer's scheduled tick, absolute or after its previous one, armed for the queue's next command. -/
def launchAtWork (o : LaunchAtOps) (h : Holder) (s : State) : State :=
  let x := look LaunchTimer.unused s.timers o.timer
  let t := if o.mode = 0 then o.tick else (x.sched + o.tick) % 2 ^ 64
  let s := { s with timers := put LaunchTimer.unused s.timers o.timer ⟨t, true, none⟩ }
  (s.onQueue h.queue (fun k => { k with armed := some o.timer })).worked h

/-- JUMP's decision on its loop slot (R65): whether it is taken, and the slot afterwards (`none`: inactive). -/
def jumpSlot (count : Nat) (slot : Option Nat) : Bool × Option Nat :=
  if count = 0 then (true, slot)
  else match slot with
    | none => (true, some (count - 1))
    | some n => if 0 < n then (true, some (n - 1)) else (false, none)

/-- JUMP (R65): it moves the queue or falls through, and completes; the END of a taken JUMP has no effect (R66). -/
def jumpWork (o : JumpOps) (h : Holder) (s : State) : State :=
  let k := s.queue h.queue
  let slot := match k.slots[o.slot]? with | some x => x | none => none
  let r := jumpSlot o.count slot
  let slots := k.slots.setIfInBounds o.slot r.2
  let s := if r.1
    then (s.setQueue h.queue { k with slots := slots, pc := o.target, ended := false }).onProg h
      (fun e => { e with taken := true })
    else s.setQueue h.queue { k with slots := slots }
  s.completeCmd h

/-! ## Phases (R66) -/

/-- The schedule set in effect. DEDUCED (log 22). -/
def State.schedule (s : State) : Option SchedSet :=
  match s.stream, s.place with
  | some st, some p => st.schedules[p.scheduleSet]?
  | _, _ => none

/-- The phase record in effect: OP_PREFERRED, OP_MIN, CAP_PRIORITY and MAX_UNPINNED. -/
def State.phaseRec (s : State) : Option PhaseRec :=
  s.schedule.bind (fun c => c.phases.find? (fun p => p.phase == s.job.phase))

/-- A queue at the start of its first list of a phase; commands still in progress no longer end a list. -/
def QState.restart (k : QState) (idle : Bool) : QState :=
  { k with li := 0, pc := 0, ended := false, slots := Vector.replicate 4 none, armed := none, buffer := none,
           wait := if idle then ⟨5, 0, false, 0⟩ else .running,
           prog := k.prog.map (fun e => { e with taken := true }) }

/-- The queues of the main stream: those of its lists, and those with a record. -/
def State.mainQueues (s : State) : List QueueId :=
  ((s.job.lists.map (·.queue)) ++ (allUnits.flatMap (fun u => (unitPorts u).map (QueueId.mk u)))).eraseDups.filter
    (fun q => q.unit != .invar)
where
  /-- Every unit of the main stream that has queues (R58). -/
  allUnits : List UnitId :=
    (List.finRange 6).map .tc ++ (List.finRange 2).map .ee ++ (List.finRange 4).map .front ++ (List.finRange 4).map .back ++
    (List.finRange 8).map .sp ++ (List.finRange 4).map .eth ++ (List.finRange 8).map .sctl ++ [.time]

/-- Every queue at its first list of the current phase. -/
def State.startLists (s : State) : State :=
  s.mainQueues.foldl (fun s q => s.onQueue q (fun k => k.restart (s.listsOf q).isEmpty)) s

/-- Timers armed for a queue that leaves its list resolved. -/
def State.dropArmed (s : State) : State :=
  s.mainQueues.foldl (fun s q => match (s.queue q).armed with | some t => s.resolveTimer t | none => s) s

/-- The stream moves to its next phase (R66): every queue starts its first list, domains claimed with MODE 1 switch; after the last
phase it returns to phase 0, the stream end, where a reload that is ready holds the queues for its replacement (R52). DEDUCED (log 23). -/
def State.advancePhase (s : State) : State :=
  let count := match s.schedule with | some c => c.phases.length | none => 1
  let wrap := decide (count ≤ s.job.phase + 1)
  let phase := if wrap then 0 else s.job.phase + 1
  let s := s.dropArmed
  let s := { s with job := { s.job with
    phase := phase, barriers := s.job.barriers.filter (fun e => decide (16 ≤ e.1)) } }
  let s := (s.startLists).phaseDomains phase s.power.retired
  if wrap && s.loader.reloadReady then
    { s with
      job := { s.job with holding := true }
      loader := { s.loader with stage := .starting, inputsHeld := true }
      regs := (s.setRegField rGuarantee 1 1 0).regs }
  else s

/-! ## Barriers (R69, R296) -/

/-- A barrier's key: Invar's barriers are its own. -/
def barrierKey (q : QueueId) (b : Nat) : Nat := if q.unit = .invar then 16 + b else b

/-- DEV_JOB_STATUS; its W1C bits have their home in this cell. -/
def rJobStatus : Nat := 0x114

/-- DEV_JOB_STATUS.BROKEN set. -/
def State.setBroken (s : State) : State := (s.setRegField rJobStatus 4 1 1).irq .barrierBroken

/-- The device above a device in the barrier tree (R296): a step along Z to z = 0, then along Y, then along X, the short way. -/
def treeParent (dims : List Nat) (own : Nat) : Option Nat :=
  let cs := coords dims own
  let d? := if cs.getD 2 0 ≠ 0 then some 2 else if cs.getD 1 0 ≠ 0 then some 1 else if cs.getD 0 0 ≠ 0 then some 0 else none
  d?.bind (fun d => (nextHop dims (fun _ => true) own (deviceAt dims (cs.set d 0)) none).map
    (fun h => portNeighbour dims own h.port))

/-- The devices directly below a device in the barrier tree. -/
def treeKids (dims : List Nat) (own : Nat) : List Nat :=
  (((List.range 6).map (portNeighbour dims own)).eraseDups).filter (fun n => n != own && treeParent dims n == some own)

/-- The dimensions of the loaded shape; a device without one stands alone. -/
def State.dims (s : State) : List Nat := match s.stream with | some st => st.dims | none => [1, 1, 1]

/-- A BARRIER packet to a tree neighbour: bit 0 of its payload byte says release, bit 1 BROKEN. DESIGN CHOICE (log 24). -/
def State.sendBarrier (s : State) (peer b : Nat) (release broken : Bool) : State :=
  s.sendPacket ⟨5, 1, 0, peer, s.device, b, 1, 0, leBytes 1 (b2n release + 2 * b2n broken)⟩ none

/-- A barrier's record. -/
def State.arrivals (s : State) (k : Nat) : Arrivals := look Arrivals.none s.job.barriers k

/-- A barrier's record set. -/
def State.setArrivals (s : State) (k : Nat) (a : Arrivals) : State :=
  { s with job := { s.job with barriers := put Arrivals.none s.job.barriers k a } }

/-- A participant's BARRIER command completed by the release. -/
def State.passBarrier (s : State) (q : QueueId) (b : Nat) : State :=
  match (s.queue q).prog.find? (fun e => !e.done && (match e.cmd.body with | .barrier o => o.id == b | _ => false)) with
  | some e =>
    (s.onQueue q (fun k => { k with ended := e.cmd.hdr.last, wait := .running })).completeCmd ⟨q, e.seq⟩
  | none => s

/-- A barrier released on this device (R69): every participant's command completes, and a release with ADVANCE moves the stream to its next phase (R66).
Of a killed stream counters, queues and phase are frozen (R72): the release leaves them. -/
def State.releaseBarrier (s : State) (k b : Nat) (broken advance : Bool) : State :=
  let a := s.arrivals k
  let s := s.setArrivals k Arrivals.none
  let s := if broken then s.setBroken else s
  if k < 16 && s.job.state != .running then s
  else
  let s := a.queues.foldl (fun s q => s.passBarrier q b) s
  if advance then s.advancePhase else s

/-- Whether a participant's BARRIER command carries ADVANCE. -/
def State.advances (s : State) (k b : Nat) : Bool :=
  (s.arrivals k).queues.any (fun q => q.unit != .invar && (s.queue q).prog.any (fun e => !e.done &&
    (match e.cmd.body with | .barrier o => o.id == b && o.advance == 1 | _ => false)))

/-- The release of a SCOPE 1 barrier, sent down the tree and taken here (R296). DESIGN CHOICE (log 24). -/
def State.releaseDomain (s : State) (b : Nat) (broken : Bool) : State :=
  let s := (treeKids s.dims s.device).foldl (fun s n => s.sendBarrier n b true broken) s
  let a := s.arrivals b
  let s := if a.reported then s.count rSldPeerWait ((s.now - a.since) / 16000) else s
  s.releaseBarrier b b broken (s.advances b b)

/-- Arrival sent up once this device and every device below it have arrived; device 0 releases (R296). -/
def State.gatherDomain (s : State) (b : Nat) : State :=
  let a := s.arrivals b
  if a.reported && (treeKids s.dims s.device).all (fun n => a.kids.contains n) then
    match treeParent s.dims s.device with
    | some p => s.sendBarrier p b false a.broken
    | none => s.releaseDomain b a.broken
  else s

/-- BARRIER (R69): the queue arrives and starts nothing more; the last participant of this device releases a SCOPE 0 barrier,
or reports the device's arrival to the domain. DEDUCED (log 23). -/
def barrierWork (o : BarrierOps) (h : Holder) (s : State) : State :=
  let q := h.queue
  let k := barrierKey q o.id
  let s := s.onQueue q (fun x => { x with ended := true, wait := ⟨4, 0, false, 0⟩ })
  let a := s.arrivals k
  let qs := if a.queues.contains q then a.queues else a.queues ++ [q]
  let s := s.setArrivals k { a with queues := qs }
  if (s.participants q o.id).all (fun p => qs.contains p) then
    if o.scope = 0 || q.unit == .invar then s.releaseBarrier k o.id false (s.advances k o.id)
    else (s.setArrivals k { a with queues := qs, reported := true, since := s.now }).gatherDomain o.id
  else s

/-! ## Submission records (R70, R71) -/

/-- The publication header of a pass (R258). -/
def pubHeader (seq slot : Nat) (p : PassInfo) : List Byte :=
  leBytes 4 seq ++ leBytes 2 p.flags ++ leBytes 2 slot ++ leBytes 4 p.frame ++ leBytes 2 p.epoch ++ leBytes 2 0 ++
  leBytes 4 p.bytes ++ leBytes 4 p.digest ++ leBytes 8 p.ts

/-- `k` steps along that sequence. -/
def seqAdd (n k : Nat) : Nat := if n + k < 2 ^ 32 then n + k else n + k - (2 ^ 32 - 1)

/-- Steps from COMPLETED to SUBMITTED along that sequence. -/
def seqDist (completed submitted : Nat) : Nat :=
  if completed ≤ submitted then submitted - completed else submitted + (2 ^ 32 - 1) - completed

/-- COMPLETE (R71): nothing is left to do but to complete, and its record is written then, in command order (R63, `State.writeCompletion`). -/
def completeWork (h : Holder) (s : State) : State := s.worked h

/-! ## Completion and launch (R64, R68) -/

/-- COMMAND_COMPLETION (R64): the oldest command of a queue that has not completed completes if its work is finished. DESIGN CHOICE (log 4); DESIGN CHOICE (log 5). -/
def State.completion (s : State) (q : QueueId) : State :=
  match s.oldest q with
  | some e => if e.worked then s.completeCmd ⟨q, e.seq⟩ else s
  | none => s

/-- LAUNCH_TICK (R67, R68, R236): the time counter has reached a timer's launch tick. Pin actions armed on it, and those that other timers hold for the same tick, take place
in command order (R238); a ready command that waits for it starts. DESIGN CHOICE (log 21). -/
def State.launchTick (s : State) (timer : Nat) (run : Body → Holder → State → State) : State :=
  let x := look LaunchTimer.unused s.timers timer
  if s.time.armed.any (fun a => a.timer == timer) then
    let due := s.time.armed.filter (fun a => a.timer == timer || a.tick == x.sched)
    let s := { s with now := max s.now x.sched, time := { s.time with armed := s.time.armed.filter (fun a => !(a.timer == timer || a.tick == x.sched)) } }
    due.foldl (fun s a => run a.body a.holder s) (due.foldl (fun s a => s.resolveTimer a.timer) s)
  else
    match x.waiting with
    | none => s
    | some q =>
      match s.fetch q with
      | none => s
      | some c =>
        if s.live q && (s.queue q).armed == some timer && !bodyIsPin c.body then
          let s := { s with now := max s.now x.sched }
          let s := ((s.onQueue q (fun k => { k with armed := none })).resolveTimer timer)
          s.startCmd q c (run c.body)
        else s

end Sys2Proof.Machine
end

