-- ==== Sys2Proof/Machine/Pins.lean ====
section
/-! DEFINITION. Machine/Pins.lean: event pins, capture, windows, pulse generators and their commands (R227-R242). -/

namespace Sys2Proof.Machine

open Sys2Proof

/-- Resource type of event pins. -/
def resPin : Nat := 0x01

/-- A pin; pins above 31 do not exist. -/
def State.pin (s : State) (n : Nat) : Pin := s.time.pins.getD n Pin.idle

/-- A pin changed. -/
def State.onPin (s : State) (n : Nat) (f : Pin → Pin) : State :=
  if h : n < 32 then { s with time := { s.time with pins := s.time.pins.set n (f s.time.pins[n]) } } else s

/-- A pulse generator. -/
def State.gen (s : State) (n : Nat) : Gen := s.time.gens.getD n Gen.idle

/-- A pulse generator changed. -/
def State.onGen (s : State) (n : Nat) (f : Gen → Gen) : State :=
  if h : n < 32 then { s with time := { s.time with gens := s.time.gens.set n (f s.time.gens[n]) } } else s

/-- A record port. -/
def State.recPort (s : State) (n : Nat) : RecPort := s.time.recPorts.getD n ⟨[], false⟩

/-- A record port changed. -/
def State.onRec (s : State) (n : Nat) (f : RecPort → RecPort) : State :=
  if h : n < 4 then { s with time := { s.time with recPorts := s.time.recPorts.set n (f s.time.recPorts[n]) } } else s

/-- The time counter at a tick or beyond it. -/
def State.reach (s : State) (t : Nat) : State := { s with now := max s.now t }

def rTime (off : Nat) : Nat := blkTime + off
def rOverrun : Nat := rTime 0x030
def rPinBusy : Nat := rTime 0x034
def rMarginal : Nat := rTime 0x038

/-- Whether the LEGAL segment claims a pin (R227, R232). -/
def State.legalPin (s : State) (p : Nat) : Bool :=
  match s.stream.bind (·.legal) with
  | some l => l.claims.any (fun c => c.kind == resPin && c.index == p)
  | none => false

/-- The claim mode of a pin. -/
def State.pinMode (s : State) (p : Nat) : Option Nat := (s.claimOf resPin p).map (·.mode)

/-! ## Records (R231-R233, R235) -/

/-- Bytes of a record at a port: capture records at 0 and 2, window records at 1 and 3. -/
def recSize (port : Nat) : Nat := if port % 2 = 0 then 16 else 64

/-- The fill record of a port: PIN 0xFF, zero elsewhere (R231). -/
def fillRec (port : Nat) : List Byte :=
  if port % 2 = 0 then List.replicate 8 0 ++ [0xFF] ++ List.replicate 7 0
  else List.replicate 0x28 0 ++ [0xFF] ++ List.replicate 0x17 0

/-- A record placed in tick order, equal ticks in ascending pin order (R231). -/
def insertRec (r : Rec) : List Rec → List Rec
  | [] => [r]
  | x :: xs => if r.tick < x.tick ∨ (r.tick = x.tick ∧ r.pin < x.pin) then r :: x :: xs else x :: insertRec r xs

/-- Tokens of a record port sent while it has a full one, or a partial one that is due, and a credit (R231). Each token is a pass of one token. DESIGN CHOICE (log 30). -/
def State.sendRecs : Nat → State → Nat → State
  | 0, s, _ => s
  | k + 1, s, port =>
    match s.chanFrom 0x0C 0 (0x20 + port) with
    | none => s
    | some i =>
      let c := s.chan i
      let n := max 1 (c.ent.tokenBytes / recSize port)
      let rp := s.recPort port
      if c.canSend && (decide (n ≤ rp.recs.length) || (rp.due && !rp.recs.isEmpty)) then
        let part := rp.recs.take n
        let pad := (List.replicate (n - part.length) (fillRec port)).flatten
        let data := slice (part.flatMap (·.data) ++ pad) 0 c.ent.tokenBytes
        let dig := slice (part.flatMap (·.digested) ++ pad) 0 c.ent.tokenBytes
        let s1 := s.onRec port (fun r => { recs := r.recs.drop n, due := r.due && !(r.recs.drop n).isEmpty && decide (n < r.recs.length) })
        (((s1.onChan i Chan.spend).send i ⟨true, true, false, false, false, false⟩ none s.now data dig (cShedDrop .time))).sendRecs k port
      else s

/-- A record of a pin stored at its port; beyond 64 capture or 16 window records of the pin it is dropped, counts CAPTURE_OVERRUN,
and the pin's next stored record says so (R233). `build` makes the bytes from the LOST mark. -/
def State.storeRec (s : State) (pin tick kind : Nat) (build : Bool → List Byte × List Byte) : State :=
  let port := (if s.legalPin pin then 2 else 0) + kind
  let held := ((s.recPort port).recs.filter (fun r => r.pin == pin)).length
  let room := if kind = 0 then 64 else 16
  if room ≤ held then (s.count rOverrun 1).onPin pin (fun p => { p with lost := true })
  else
    let b := build (s.pin pin).lost
    let s := s.onPin pin (fun p => { p with lost := false })
    (s.onRec port (fun r => { r with recs := insertRec ⟨tick, pin, b.1, b.2⟩ r.recs })).sendRecs 8 port

/-- A window's record emitted (R235): a window cut short ends at the disarm tick. -/
def State.emitWindow (s : State) (pin : Nat) (c : Capture) (w : Window) (cut : Option Nat) : State :=
  let op := (c.start + w.index * c.period) % 2 ^ 64
  let cl := match cut with | some t => t | none => (op + c.length) % 2 ^ 64
  let rest (lost : Bool) : List Byte := leBytes 4 w.index ++ leBytes 4 (min w.count (2 ^ 32 - 1)) ++ leBytes 1 pin ++
    leBytes 1 (b2n lost + 2 * b2n w.marginal + 4 * b2n w.stepped + 8 * b2n cut.isSome) ++ List.replicate 0x16 0
  s.storeRec pin cl 1 (fun lost =>
    (leBytes 8 op ++ leBytes 8 cl ++ leBytes 8 w.first ++ leBytes 8 w.last ++ rest lost, List.replicate 32 0 ++ rest lost))

/-- Whether a capture still has a window of that index. -/
def Capture.has (c : Capture) (i : Nat) : Bool := decide (0 < c.length) && (c.count == 0 || decide (i < c.count))

/-- Windows of a pin whose CLOSE is at or before a tick closed (R235); `step` marks windows that a step of the counter crosses (R216). DESIGN CHOICE (log 44). -/
def State.closeWindows : Nat → State → Nat → Nat → Bool → State
  | 0, s, _, _, _ => s
  | k + 1, s, pin, t, step =>
    match (s.pin pin).cap with
    | none => s
    | some c =>
      let w := (s.pin pin).win
      if c.has w.index && decide (c.start + w.index * c.period + c.length ≤ t) then
        let w := { w with stepped := w.stepped || step }
        let s1 := (s.emitWindow pin c w none).onPin pin (fun p => { p with win := Window.fresh (w.index + 1) })
        s1.closeWindows k pin t step
      else s

/-- Windows that end by a tick. -/
def Capture.upTo (c : Capture) (t : Nat) : Nat := if c.length = 0 ∨ t < c.start then 0 else (t - c.start) / max 1 c.period + 1

/-- A capture ended at a tick: windows that have ended close, an open one closes with CUT (R234, R238). -/
def State.disarm (s : State) (pin t : Nat) : State :=
  match (s.pin pin).cap with
  | none => s
  | some c =>
    let s := s.closeWindows (c.upTo t) pin t false
    let w := (s.pin pin).win
    let s := if c.has w.index && decide (c.start + w.index * c.period < t) then s.emitWindow pin c w (some t) else s
    s.onPin pin (fun p => { p with cap := none })

/-- WINDOW_CLOSE (R235): the window in progress of a pin has reached its CLOSE tick. -/
def State.windowClose (s : State) (pin : Nat) : State :=
  match (s.pin pin).cap with
  | none => s
  | some c =>
    let w := (s.pin pin).win
    if c.has w.index then
      let t := c.start + w.index * c.period + c.length
      (s.reach t).closeWindows 1 pin t false
    else s

/-- REC_FLUSH (R231): tREC_FLUSH after its first record a partly filled token of a port is filled and sent. -/
def State.recFlush (s : State) (port : Nat) : State :=
  (s.onRec port (fun r => { r with due := !r.recs.isEmpty })).sendRecs 8 port

/-! ## Capture (R229, R230, R234) -/

/-- tCAP_DEAD, 4 ns in ticks. DESIGN CHOICE (log 43). -/
def tCapDead : Nat := 64

/-- An edge at an armed pin, already at its recorded tick. DESIGN CHOICE (log 43). -/
def State.captureEdge (s : State) (pin t : Nat) (rising marginal : Bool) : State :=
  match (s.pin pin).cap with
  | none => s
  | some c =>
    if t < c.start || !(c.edges.testBit (if rising then 0 else 1)) then s
    else
      let s := s.closeWindows (c.upTo t) pin t false
      let i := if c.length = 0 then 0 else (t - c.start) / max 1 c.period
      let inside := c.length = 0 ∨ ((t - c.start) % max 1 c.period < c.length ∧ c.has i)
      if ¬ inside then s
      else
        let p := s.pin pin
        let close := match p.prev with | some x => decide (t < x + tCapDead) | none => false
        let s := if marginal then s.count rMarginal 1 else s
        let seq := p.seq
        let s := s.onPin pin (fun p => { p with
          seq := (p.seq + 1) % 2 ^ 16
          prev := if close then p.prev else some t
          win := if c.length = 0 then p.win
            else { p.win with first := if p.win.count = 0 then t else p.win.first, last := t, count := p.win.count + 1
                              marginal := p.win.marginal || marginal } })
        if close then (s.count rOverrun 1).onPin pin (fun p => { p with lost := true })
        else
          let wi := if c.length = 0 then 0xFFFF_FFFF else i % 2 ^ 32
          let tail (lost : Bool) : List Byte :=
            leBytes 1 pin ++ leBytes 1 (b2n rising + 2 * b2n marginal + 4 * b2n lost) ++ leBytes 2 seq
          let lost := p.lost
          let s := s.onPin pin (fun p => { p with last := (t, leNat (tail lost)) })
          s.storeRec pin t 0 (fun lost => (leBytes 8 t ++ tail lost ++ leBytes 4 wi, List.replicate 8 0 ++ tail lost ++ leBytes 4 wi))

/-- EVENT_PIN_EDGE (R229, R230): an edge at a pin's ball, its instant in 1/256 tick. The recorded tick is the instant less the pin's offset, to the nearest
tick with ties away from zero; within 1/16 tick of the boundary between two ticks it is MARGINAL. DESIGN CHOICE (log 43). -/
def State.pinEdge (s : State) (pin instant : Nat) (rising : Bool) : State :=
  let s := (s.reach (instant / 256)).onPin pin (fun p => { p with input := rising })
  let t := unsigned 64 (((instant + 128) / 256 : Nat) - s.pinOffset pin)
  let off := (instant + 128) % 256
  let marginal := decide (off ≤ 16) || decide (240 ≤ off)
  if s.pinMode pin = some 0 then s.captureEdge pin t rising marginal else s

/-! ## Outputs (R236-R239) -/

/-- Whether a running generator drives a pin. -/
def State.genDrives (s : State) (pin : Nat) : Bool := s.time.gens.toList.any (fun g => g.running && g.pin == pin)

/-- The reference tick S of a command in progress (R236). -/
def State.refTick (s : State) (h : Holder) : Nat := match s.prog h with | some e => e.tick | none => s.now

/-- A trigger action recorded for TRIGGER_TICK (R192): frames look for the last one in their interval. -/
def State.noteTrigger (s : State) (pin t : Nat) : State := { s with trigs := put [] s.trigs pin (look [] s.trigs pin ++ [t]) }

/-- PIN_SET (R236, R238): the level is set or toggled; a pin that a running generator drives is busy. A level set ends a pulse in progress. -/
def pinSetWork (o : PinSetOps) (h : Holder) (s : State) : State :=
  let s :=
    if s.genDrives o.pin then s.count rPinBusy 1
    else (s.onPin o.pin (fun p => { p with
      level := if o.level = 0 then false else if o.level = 1 then true else !p.level, pulse := none })).noteTrigger o.pin (s.refTick h)
  s.worked h

/-- PIN_PULSE (R236, R238): the level inverts for WIDTH ticks. -/
def pinPulseWork (o : PinPulseOps) (h : Holder) (s : State) : State :=
  let t := s.refTick h
  let s :=
    if s.genDrives o.pin then s.count rPinBusy 1
    else (s.onPin o.pin (fun p => { p with level := !p.level, pulse := some (p.level, t + o.width) })).noteTrigger o.pin t
  s.worked h

/-- PULSE_END (R236): a pin returns to the level it had before its pulse. -/
def State.pulseEnd (s : State) (pin : Nat) : State :=
  match (s.pin pin).pulse with
  | some (l, t) => (s.reach t).onPin pin (fun p => { p with level := l, pulse := none })
  | none => s

/-- E_k (R239). -/
def Gen.edge (g : Gen) (k : Nat) : Nat := g.start + k * g.perN / max 1 g.perD

/-- A generator stopped at a tick (R238): no edge is due from there on; a high level in progress is a pulse of the pin, which ends at its normal end. -/
def State.stopGen (s : State) (pg : Nat) : State :=
  let g := s.gen pg
  let s := if g.high then s.onPin g.pin (fun p => { p with pulse := some (!p.level, g.edge g.k + g.width) }) else s
  s.onGen pg (fun g => { g with running := false, high := false })

/-- PG_START (R236, R238, R239): a generator starts on its pin; a pin driven by a running generator or with a pulse in progress is busy. -/
def pgStartWork (o : PgStartOps) (h : Holder) (s : State) : State :=
  let busy := s.genDrives o.pin || (s.pin o.pin).pulse.isSome
  let s := if busy then s.count rPinBusy 1
    else (s.stopGen o.pg).onGen o.pg (fun _ => ⟨true, o.pin, s.refTick h, o.width, o.periodN, o.periodD, o.count, 0, false⟩)
  s.worked h

/-- PG_STOP (R238). -/
def pgStopWork (o : PgStopOps) (h : Holder) (s : State) : State := (s.stopGen o.pg).worked h

/-- PG_EDGE (R239): the next edge of a generator: pulse k begins at E_k, or ends at E_k + WIDTH; after COUNT pulses it stops. -/
def State.pgEdge (s : State) (pg : Nat) : State :=
  let g := s.gen pg
  if g.high then
    let s := (s.reach (g.edge g.k + g.width)).onPin g.pin (fun p => { p with level := !p.level })
    s.onGen pg (fun g => { g with high := false, k := g.k + 1
                                  running := g.running && (g.count == 0 || decide (g.k + 1 < g.count)) })
  else if g.running then
    let t := g.edge g.k
    ((s.reach t).onPin g.pin (fun p => { p with level := !p.level })).onGen pg (fun g => { g with high := true }) |>.noteTrigger g.pin t
  else s

/-- CAP_ARM (R234): the armed interval begins at S; an earlier arming of the pin ends there. -/
def capArmWork (o : CapArmOps) (h : Holder) (s : State) : State :=
  let t := s.refTick h
  let s := s.disarm o.pin t
  (s.onPin o.pin (fun p => { p with cap := some ⟨o.edges, t, o.length, o.period, o.count⟩, win := Window.fresh 0 })).worked h

/-- CAP_DISARM (R234). -/
def capDisarmWork (o : CapDisarmOps) (h : Holder) (s : State) : State := (s.disarm o.pin (s.refTick h)).worked h

/-- What a kill does to pins (R72, R238): armed actions are cancelled, generators stop, captures of main-stream pins end with CUT. -/
def State.killPins (s : State) : State :=
  let s := { s with time := { s.time with armed := s.time.armed.filter (fun a => a.holder.queue.unit == .invar) } }
  let s := (List.range 32).foldl (fun s g => s.stopGen g) s
  (List.range 32).foldl (fun s p => if s.legalPin p then s else s.disarm p s.now) s

/-- PIN_CALIBRATION (R241): the idle lane is calibrated and the lanes swap; a failure keeps the previous setting and counts. -/
def State.pinCal (s : State) (pin : Nat) (passed : Bool) : State :=
  if passed then
    let s := (s.onPin pin (fun p => { p with lane := !p.lane })).count (rTime 0x020) 1
    { s with time := { s.time with calLast := s.now } }
  else s.count (rTime 0x040) 1

/-! ## PIN_FORCE (R228) -/

/-- TIME_PIN_FORCE_EN (0x048) or TIME_PIN_FORCE_LVL (0x04C) written: bits of claimed pins are ignored and count CLAIM_IGNORED. DESIGN CHOICE (log 45). -/
def State.pinForce (s : State) (off : Nat) (w : Word) : State :=
  let old := s.reg (rTime off)
  let bad := (List.range 32).filter (fun p => s.claimed resPin p && w.getLsbD p)
  let v := (List.range 32).foldl (fun a p => a + (if s.claimed resPin p then b2n (old.testBit p) else b2n (w.getLsbD p)) * 2 ^ p) 0
  (s.setReg (rTime off) v).count rClaimIgnored (if bad.isEmpty then 0 else 1)

/-- The level at a pin's ball (TIME_PIN_STATE): an output's level, a forced level (low in a trip, R337), or the level seen as an input. -/
def State.ballLevel (s : State) (p : Nat) : Bool :=
  match s.pinMode p with
  | some 0 => (s.pin p).input
  | some _ => (s.pin p).level
  | none => if (s.reg (rTime 0x048)).testBit p then s.trip.isNone && (s.reg (rTime 0x04C)).testBit p else (s.pin p).input

end Sys2Proof.Machine
end

