-- ==== Sys2Proof/Machine/TimeUnit.lean ====
section
/-! DEFINITION. Machine/TimeUnit.lean: time sources, the master of a domain, corrections, PPS, and sensor-control commands (R189-R191, R214-R224, R240). -/

namespace Sys2Proof.Machine

open Sys2Proof

/-! ## The source and the master (R217-R221) -/

/-- The time unit changed. -/
def State.onTime (s : State) (f : TimeUnit → TimeUnit) : State := { s with time := f s.time }

/-- A Solder time port. -/
def State.timePort (s : State) (n : Nat) : TimePort := s.time.links.getD n TimePort.silent

/-- A Solder time port changed. -/
def State.onTimePort (s : State) (n : Nat) (f : TimePort → TimePort) : State :=
  if h : n < 8 then s.onTime (fun t => { t with links := t.links.set n (f t.links[n]) }) else s

/-- PARAM of the time unit's TOPOLOGY record (R217); free-run without one. -/
def State.timeParam (s : State) : Nat :=
  match s.stream.bind (fun st => st.units.find? (fun u => u.role == 0x60)) with
  | some u => u.param
  | none => 0x30

/-- The PTP port that PARAM names. -/
def State.ptpPort (s : State) : Nat := field s.timeParam 1 3

/-- Whether the time comes from a PTP port in SLAVE state (R218); a PTP time before the epoch makes it unavailable (R214). -/
def State.slave (s : State) : Bool := s.time.source == 0 && (s.ethPort s.ptpPort).ptp == 2 && !s.time.early

/-- The rank of this device (R220). DEDUCED (log 46). -/
def State.ownRank (s : State) : Nat :=
  let t := s.time
  if s.slave then 1
  else if t.source = 1 ∧ t.locked then 2
  else if t.holdover then 3
  else if t.source = 2 then 5
  else 4

/-- The best of two candidates for master, as (rank, device): the higher rank, then the lower device number. -/
def betterMaster (a b : Nat × Nat) : Nat × Nat := if a.1 < b.1 ∨ (a.1 = b.1 ∧ a.2 ≤ b.2) then a else b

/-- Ports on which a neighbour's messages have arrived and that work. -/
def State.heard (s : State) : List (Nat × Neigh) :=
  (List.range 8).filterMap (fun n =>
    match (s.timePort n).neigh with
    | some g => if (s.port n).up && !(s.port n).retraining then some (n, g) else none
    | none => none)

/-- The neighbour nearest to a master: fewest hops, then the lowest device number (R221). -/
def nearest (master : Nat) (gs : List (Nat × Neigh)) : Option (Nat × Neigh) :=
  (gs.filter (fun g => g.2.master == master)).foldl (fun b g =>
    match b with
    | none => some g
    | some x => if g.2.hops < x.2.hops ∨ (g.2.hops = x.2.hops ∧ g.2.sender < x.2.sender) then some g else some x) none

/-- A new election (R220, R221): the master, this device's parent and its hops; a change of master is raised as TIME.
A source 2 device is VALID when its parent is (R218). DEDUCED (log 46). -/
def State.elect (s : State) : State :=
  let own := (s.ownRank, s.device)
  let best := s.heard.foldl (fun b g => betterMaster b (g.2.rank, g.2.master)) own
  let s0 := s
  let s :=
    if best = own then s.onTime (fun t => { t with master := s.device, hops := 0, parent := none })
    else match nearest best.2 s.heard with
      | some (p, g) => s.onTime (fun t => { t with
          master := best.2, hops := g.hops + 1, parent := some p
          valid := t.valid || (t.source == 2 && g.valid) })
      | none => s.onTime (fun t => { t with master := s.device, hops := 0, parent := none })
  if s.time.master ≠ s0.time.master then s.irq .time else s

/-- The source is lost (R219): the device holds over with its last frequency correction, and TIME is raised. -/
def State.loseTime (s : State) : State :=
  ((s.onTime (fun t => { t with locked := false, holdover := true })).irq .time).elect

/-- Time messages pause on a link (R223): its neighbour is heard no more; a device whose parent it was takes another, or holds over. -/
def State.timePause (s : State) (port : Nat) : State :=
  let t := (s.onTimePort port (fun p => { p with neigh := none })).elect
  if s.time.parent = some port ∧ t.time.parent = none then t.loseTime else t

/-! ## Corrections (R215, R216) -/

/-- TIME_OFFSET: signed, in 1/256 tick, saturating. -/
def offsetCode (i : Int) : Nat := unsigned 32 (max (-(2 ^ 31 : Int)) (min (2 ^ 31 - 1) i))

/-- The limit of a frequency correction: ±1,000 ppm in units of 2^-40 (R215). DESIGN CHOICE (log 42). -/
def freqLimit : Nat := 1_099_511_627

/-- A frequency correction that the servo sets: a free value within ±1,000 ppm. DESIGN CHOICE (log 42). -/
def State.steer (s : State) : State :=
  let r := s.fresh
  r.2.onTime (fun t => { t with freq := ((r.1 % (2 * freqLimit + 1) : Nat) : Int) - freqLimit })

/-- Pulses of a generator that a forward step passes over are skipped. DESIGN CHOICE (log 44). -/
def Gen.skipTo (g : Gen) (t : Nat) : Gen :=
  if g.running && !g.high && decide (g.edge g.k < t) then
    let k := max g.k (ceilDiv ((t - g.start) * g.perD) (max 1 g.perN))
    { g with k := k, running := g.count == 0 || decide (k < g.count) }
  else g

/-- A forward step of the counter to `t` (R216): it counts; pin actions whose ticks it passes over are skipped, other waiting commands
run at once and count LATE_LAUNCH, and windows it crosses close with STEPPED. DESIGN CHOICE (log 44). -/
def State.stepTo (s : State) (t : Nat) (run : Body → Holder → State → State) : State :=
  let s := { s.count (rTime 0x02C) 1 with now := t }
  let passed := s.time.armed.filter (fun a => decide (a.tick < t))
  let s := s.onTime (fun u => { u with armed := u.armed.filter (fun a => decide (t ≤ a.tick)) })
  let s := passed.foldl (fun s a =>
    ((s.resolveTimer a.timer).worked a.holder).count (cSkippedPin a.holder.queue.unit) 1) s
  let s := (s.timers.filter (fun x => x.2.waiting.isSome && decide (x.2.sched < t))).foldl (fun s x =>
    match x.2.waiting.bind (fun q => (s.fetch q).map (fun c => (q, c))) with
    | some (q, c) =>
      if s.live q && (s.queue q).armed == some x.1 && !bodyIsPin c.body then
        let s := (s.onQueue q (fun k => { k with armed := none })).resolveTimer x.1
        (s.startCmd q c (run c.body)).count (cLateLaunch q.unit) 1
      else s
    | none => s) s
  let s := (List.range 32).foldl (fun s p =>
    match (s.pin p).cap with
    | some c => s.closeWindows (c.upTo t) p t true
    | none => s) s
  (List.range 32).foldl (fun s g => s.onGen g (fun x => x.skipTo t)) s

/-- An offset of this device's time to its source, in 1/256 tick, corrected (R216): slewed below TIME_STEP_LIMIT, and backwards while a stream is loaded;
stepped otherwise, by whole ticks, and the rest slewed. DESIGN CHOICE (log 42); DESIGN CHOICE (log 108). -/
def State.correct (s : State) (offset : Int) (run : Body → Holder → State → State) : State :=
  let s := (s.onTime (fun t => { t with offset := offset, slew := offset })).steer
  let limit : Int := (s.reg (rTime 0x01C) * 16000 * 256 : Nat)
  let ticks : Int := offset / 256
  let rest (s : State) : State := s.onTime (fun t => { t with slew := offset % 256 })
  if (offset.natAbs : Int) < limit then s
  else if ticks < 0 then (rest s).stepTo (s.now + ticks.natAbs) run
  else if s.stream.isNone then { rest s with now := s.now - ticks.natAbs }
  else s

/-- What `n` ticks of the local clock at its nominal rate add to the counter (R215, R216): each is corrected by TIME_FREQ and by a slew of at most 500 ppm towards
the source, and the fraction of a tick is carried. -/
def TimeUnit.advance (t : TimeUnit) (n : Nat) : Nat × TimeUnit :=
  let most : Int := (n * 256 * 500 / 1_000_000 : Nat)
  let d : Int := max (-most) (min most t.slew)
  let x : Int := (n : Int) * 2 ^ 40 + n * t.freq - d * 2 ^ 32 + t.frac
  ((x / 2 ^ 40).toNat, { t with slew := t.slew - d, frac := (x % 2 ^ 40).toNat })

/-- The source locks (R219): LOCKED is set and HOLDOVER clears. -/
def State.lockTime (s : State) : State := (s.onTime (fun t => { t with locked := true, holdover := false })).elect

/-- The source that the ROM default stream stands at in its chain (R56): PTP with a grandmaster, else REF_10M_IN with PPS_IN, else free-run. Any other stream keeps
its source (R219). DEDUCED (log 46). -/
def State.chain (s : State) : State :=
  if s.boot.isDefault then
    let next := if (s.ethPort s.ptpPort).ptp == 2 && !s.time.early then 0 else if s.time.ref && s.time.pps.isSome then 1 else 3
    if s.time.source = next then s else (s.onTime (fun t => { t with source := next })).elect
  else s

/-- SOURCE_LOST (R219): what is lost is gone; it loses the source that stands on it, and the device holds over. Under another source it is no loss of the source: the local
clock falls back to the crystal (R215), a silent parent is left. A Solder parent that falls silent is left for another, if one is nearer the master. DEDUCED (log 46). -/
def State.sourceLost (s : State) (what : TimeLoss) : State :=
  let src := s.time.source
  let s := match what with
    | .ptp => let s := s.onEth s.ptpPort (fun p => { p with ptp := 1 }); if src = 0 then s.loseTime else s
    | .reference => let s := s.onTime (fun t => { t with ref := false }); if src = 1 then s.loseTime else s
    | .pps => let s := s.onTime (fun t => { t with pps := none }); if src = 1 then s.loseTime else s
    | .parent =>
      match s.time.parent with
      | none => s
      | some p =>
        let s := (s.onTimePort p (fun x => { x with neigh := none })).elect
        if src = 2 ∧ s.time.parent = none then s.loseTime else s
  s.chain

/-- REF_10M_IN_RETURN (R215, R219): the local clock locks to the reference again; source 1 regains LOCKED where PPS_IN has edges too. -/
def State.refReturn (s : State) : State :=
  let s := (s.onTime (fun t => { t with ref := true })).chain
  if s.time.source = 1 ∧ s.time.pps.isSome then s.lockTime else s

/-- A number of ticks in a second (R214). -/
def second : Nat := 16_000_000_000

/-- PPS_IN_EDGE (R218): a whole second at a counter reading; an armed TIME_SET_SEC is applied, and makes the time VALID under source 1 and on a free-running master.
DEDUCED (log 46). -/
def State.ppsEdge (s : State) (tick : Nat) (run : Body → Holder → State → State) : State :=
  let s := ((s.reach tick).onTime (fun t => { t with pps := some tick })).chain
  if s.regField (rTime 0x018) 0 1 = 1 then
    let target := s.reg (rTime 0x014) * second
    let s := s.setRegField (rTime 0x018) 0 1 0
    let sets := s.time.source == 1 || (s.time.source == 3 && s.time.master == s.device)
    let s := (s.onTime (fun t => { t with valid := t.valid || sets })).correct (((tick : Int) - target) * 256) run
    if s.time.source = 1 ∧ s.time.ref then s.lockTime else s
  else if s.time.source = 1 then
    let near := (tick + second / 2) / second * second
    let s := s.correct (((tick : Int) - near) * 256) run
    if s.time.ref then s.lockTime else s
  else s

/-- PPS_OUT_SECOND (R240): at a whole second PPS_OUT rises for PPS_WIDTH_MS while the time is VALID and the output enabled; a thermal trip keeps it low. -/
def State.ppsOutSecond (s : State) : State :=
  let t := ceilDiv s.now second * second
  let s := s.reach t
  let ctl := s.reg (rTime 0x018)
  if s.time.valid && ctl.testBit 16 && s.trip.isNone then
    s.onTime (fun u => { u with ppsOut := t + max 1 (field ctl 8 8) * 16_000_000 })
  else s

/-- The level at PPS_OUT. -/
def State.ppsLevel (s : State) : Bool :=
  s.time.valid && (s.reg (rTime 0x018)).testBit 16 && s.trip.isNone && decide (s.now < s.time.ppsOut)

/-- SET_ARM: a write of TIME_CTRL; SET_ARM is set by 1, the other fields are written, and a PPS_WIDTH_MS of 0 reads as 1. DESIGN CHOICE (log 47). -/
def State.setArm (s : State) (w : Word) : State :=
  let old := s.reg (rTime 0x018)
  let arm := b2n (old.testBit 0 || w.getLsbD 0)
  s.setReg (rTime 0x018) (arm + max 1 (field w.toNat 8 8) * 256 + field w.toNat 16 1 * 65536)

/-! ## Solder time messages (R221) -/

/-- The message a device sends: TYPE, its master's rank, the master, itself, its hops, SEQ and a tick in 1/256. -/
def State.timeMsg (s : State) (type seq t256 : Nat) : List Byte :=
  let rank := match s.time.parent.bind (fun p => (s.timePort p).neigh) with | some g => g.rank | none => s.ownRank
  leBytes 1 type ++ leBytes 1 rank ++ leBytes 2 s.time.master ++ leBytes 2 s.device ++ leBytes 2 s.time.hops ++
  leBytes 4 seq ++ leBytes 4 0 ++ leBytes 8 (t256 / 256) ++ leBytes 2 (t256 % 256) ++ List.replicate 6 0

/-- A time message sent on a port. -/
def State.sendTime (s : State) (port type t256 : Nat) : State :=
  let seq := (s.timePort port).seq
  let m := s.timeMsg type seq t256
  (s.onTimePort port (fun p => { p with seq := (p.seq + 1) % 2 ^ 32 })).onPort port
    (fun p => p.push ⟨9, 0, 0, p.neighbour, s.device, 0, 32, 0, m⟩)

/-- The counter with a sub-tick part that the spec leaves open, in 1/256 tick. DESIGN CHOICE (log 42). -/
def State.now256 (s : State) : Nat × State :=
  let r := s.fresh
  (s.now * 256 + r.1 % 256, r.2)

/-- SYNC_PERIOD: a SYNC on every working link (R221). -/
def State.syncPeriod (s : State) : State :=
  (List.range 8).foldl (fun s n =>
    if (s.port n).up && !(s.port n).retraining then
      let r := s.now256
      r.2.sendTime n 1 r.1
    else s) s

/-- A message's SEQ checked: messages that did not arrive count TIME_SYNC_LOST. DESIGN CHOICE (log 47). -/
def State.noteSeq (s : State) (port seq : Nat) : State :=
  let lost := match (s.timePort port).rxSeq with
    | some x => (seq + 2 ^ 32 - (x + 1) % 2 ^ 32) % 2 ^ 32
    | none => 0
  (s.count (rTime 0x03C) (if lost < 2 ^ 31 then lost else 0)).onTimePort port (fun p => { p with rxSeq := some seq })

/-- The sender's view in a message, and whether its time is VALID. -/
def neighOf (m : List Byte) (valid : Bool) : Neigh := ⟨leAt m 1 1, leAt m 2 2 % 1024, leAt m 4 2 % 1024, leAt m 6 2 % 1024, valid⟩

/-- TICK and FRAC of a message in 1/256 tick. -/
def tickOf (m : List Byte) : Nat := leAt m 0x10 8 * 256 + leAt m 0x18 2 % 256

/-- A message taken from a port: its SEQ and its sender's view, and a new election (R220). -/
def State.hearTime (s : State) (r : TimeRx) (m : List Byte) : State :=
  ((s.noteSeq r.rx.port (leAt m 8 4)).onTimePort r.rx.port (fun p => { p with neigh := some (neighOf m r.valid) })).elect

/-- SYNC: the child notes t1 and t2 and asks for the delay (R221). -/
def State.takeSync (s : State) (x : TimeRx) (m : List Byte) : State :=
  let port := x.rx.port
  let s := s.hearTime x m
  let s := s.onTimePort port (fun p => { p with t1 := tickOf m, t2 := x.tick })
  if s.time.parent = some port then
    let r := s.now256
    (r.2.onTimePort port (fun p => { p with t3 := r.1 })).sendTime port 2 r.1
  else s

/-- DELAY_REQ: answered with its receive tick. -/
def State.takeDelayReq (s : State) (x : TimeRx) (m : List Byte) : State := (s.hearTime x m).sendTime x.rx.port 3 x.tick

/-- DELAY_RESP: the offset to the parent is measured and corrected (R216, R221); a device that follows Solder time locks, a free-running one holds over no more.
DESIGN CHOICE (log 108). -/
def State.takeDelayResp (s : State) (x : TimeRx) (m : List Byte) (run : Body → Holder → State → State) : State :=
  let port := x.rx.port
  let s := s.hearTime x m
  if s.time.parent = some port then
    let p := s.timePort port
    let off : Int := (((p.t2 : Int) - p.t1) - ((tickOf m : Int) - p.t3)) / 2 - p.asym
    let s := s.correct off run
    if s.time.source = 2 then s.lockTime
    else if s.time.source = 3 then (s.onTime (fun t => { t with holdover := false })).elect else s
  else s

/-- PORT_STATE of the PTP port: an ordinary clock masters only under source 1 (R224), and listens otherwise. -/
def State.ptpState (s : State) (state : Nat) : Nat := if state = 3 ∧ s.time.source ≠ 1 then 1 else state

/-- PTP_MESSAGE (R218, R219, R224): what the firmware makes of a message of the domain in effect on the PTP port: PORT_STATE, asCapable, and a measured offset.
In SLAVE state the time is VALID and the offset is corrected; leaving it, or a PTP time before the epoch (R214), loses the source. DEDUCED (log 46). -/
def State.ptpMessage (s : State) (port domain state : Nat) (asCapable : Bool) (offset : Option Int) (run : Body → Holder → State → State) : State :=
  if port ≠ s.ptpPort ∨ domain ≠ field s.time.ptp.toNat 0 8 then s
  else
    let was := s.slave
    let early := match offset with | some o => decide ((s.now * 256 : Int) < o) | none => s.time.early
    let s := ((s.onEth port (fun p => { p with ptp := s.ptpState state, asCapable := asCapable })).onTime (fun t => { t with early := early })).chain
    if s.slave then
      let s := s.onTime (fun t => { t with valid := true })
      match offset with
      | some o => (s.correct o run).lockTime
      | none => s.elect
    else if was then s.loseTime.chain
    else s

/-- ANNOUNCE_INTERVAL: pending ETH_PTP_CTRL settings take effect. -/
def State.announce (s : State) : State := s.onTime (fun t => { t with ptp := BitVec.ofNat 32 (s.reg (blkEth + 0x300)) })

/-! ## Sensor clocks (R191) -/

/-- MCLK_SWITCH: a clock whose frequency claim changed switches at the next whole second. -/
def State.mclkSwitch (s : State) (n : Nat) : State :=
  if h : n < 16 then
    match s.mclk[n].next with
    | some f => { s.reach (ceilDiv s.now second * second) with mclk := s.mclk.set n ⟨f, none⟩ }
    | none => s
  else s

/-- The tick of rising edge `k` of a sensor clock at `f` × 100 kHz. -/
def mclkEdge (f k : Nat) : Nat := ceilDiv (k * second) (f * 100_000)

/-- IBI (R189): an in-band interrupt held in CAMn_SCTL_IBI. -/
def State.inBand (s : State) (port address payload : Nat) : State :=
  if h : port < 8 then
    { s with ibi := s.ibi.set port ⟨payload % 256, address % 128, true, satAdd 0xFFFF s.ibi[port].count 1⟩ }
  else s

/-! ## Sensor-control commands (R189, R190) -/

/-- The outcome of a bus transaction: whether its last attempt ended in a NACK, a free value. DESIGN CHOICE (log 41). -/
def State.busOutcome (s : State) (h : Holder) : Bool × State :=
  let r := s.fresh
  let nack := r.1 % 2 == 1
  (nack, r.2.setMover h { r.2.mover h with bad := nack })

/-- A transaction that a port's bus carries: its target, register, code and data, as the command gives them (R189). -/
def State.drive (s : State) (u : UnitId) (b : Body) : State :=
  if h : unitIndex u < 8 then { s with bus := s.bus.set (unitIndex u) (some b) } else s

/-- SCTL_WRITE (R190): the bytes go on the bus; what follows from the outcome takes place at completion. -/
def sctlWriteWork (o : SctlOps) (h : Holder) (s : State) : State := (((s.drive h.queue.unit (.sctlWrite o)).busOutcome h).2).worked h

/-- SCTL_CCC (R189). -/
def sctlCccWork (o : CccOps) (h : Holder) (s : State) : State := (((s.drive h.queue.unit (.sctlCcc o)).busOutcome h).2).worked h

/-- Bytes written at a virtual address for a command, page by page, from where the engine stands; answers whether all are written. -/
def State.writeSpan : Nat → State → Holder → Nat → List Byte → Bool × State
  | 0, s, _, _, _ => (false, s)
  | k + 1, s, h, va, bs =>
    let m := s.mover h
    if bs.length ≤ m.next then (true, s)
    else
      let a := va + m.next
      let part := (bs.drop m.next).take (4096 - a % 4096)
      match s.writeVirt h 0xFFFF a part [0, 0, 0, 0, 0] with
      | (.stopped, s1) => (false, s1)
      | (_, s1) => (s1.setMover h { s1.mover h with next := m.next + part.length }).writeSpan k h va bs

/-- SCTL_READ goes on: the bytes the sensor returned are written to stack memory. DESIGN CHOICE (log 41). -/
def State.runSctlRead (s : State) (h : Holder) (o : SctlOps) : State :=
  let m := s.mover h
  if m.bad then s.worked h
  else match s.writeSpan 4 h o.dest m.buf with
    | (true, s1) => s1.worked h
    | (false, s1) => s1

/-- SCTL_READ (R190): LEN bytes of input data, whose values are free; after a NACK nothing is written. DESIGN CHOICE (log 41). -/
def sctlReadWork (o : SctlOps) (h : Holder) (s : State) : State :=
  let s := ((s.drive h.queue.unit (.sctlRead o)).busOutcome h).2
  let r := (List.range o.len).foldl (fun (x : List Byte × State) _ =>
    let v := x.2.fresh
    (x.1 ++ [BitVec.ofNat 8 v.1], v.2)) ([], s)
  (r.2.setMover h { r.2.mover h with buf := r.1 }).runSctlRead h o

end Sys2Proof.Machine
end

