-- ==== Sys2Proof/Machine/Vector.lean ====
section
/-! DEFINITION. Machine/Vector.lean: the vector unit (R91-R93, R378, R379). -/

namespace Sys2Proof.Machine

open Sys2Proof

/-! ## Operands (R91) -/

/-- ROWS. -/
def VecOps.nrows (o : VecOps) : Nat := o.rowsM1 + 1
/-- COLS. -/
def VecOps.ncols (o : VecOps) : Nat := o.colsM1 + 1

/-- Lines of a stored row of `len` elements of `w` bits: the pitch of the vector unit. -/
def vecPitch (len w : Nat) : Nat := ceilDiv (len * w) 512

def vImm (f : Nat) : Bool := f.testBit 0
def vBRow (f : Nat) : Bool := f.testBit 1
def vBCol (f : Nat) : Bool := f.testBit 2
def vCRow (f : Nat) : Bool := f.testBit 3
def vCCol (f : Nat) : Bool := f.testBit 4
def vACol (f : Nat) : Bool := f.testBit 5
def vDCol (f : Nat) : Bool := f.testBit 6

/-- The code of A's element in row `r`, column `k`. -/
def aElem (c : Core) (o : VecOps) (w r k : Nat) : Nat :=
  if vACol o.vflags then c.elem o.aLine (vecPitch (o.rowsM1 + 1) w) w k r
  else c.elem o.aLine (vecPitch (o.colsM1 + 1) w) w r k

/-- The lines of A. -/
def aLines (o : VecOps) (w : Nat) : List Nat :=
  if vACol o.vflags then rowLines o.aLine (vecPitch (o.rowsM1 + 1) w) w (o.colsM1 + 1) (o.rowsM1 + 1)
  else rowLines o.aLine (vecPitch (o.colsM1 + 1) w) w (o.rowsM1 + 1) (o.colsM1 + 1)

/-- A 32-bit operand at a line: per row, per column, or whole in row view. -/
def wideElem (c : Core) (line cols : Nat) (perRow perCol : Bool) (r k : Nat) : Nat :=
  if perRow then c.bitsAt line (32 * r) 32
  else if perCol then c.bitsAt line (32 * k) 32
  else c.elem line (vecPitch cols 32) 32 r k

/-- The lines of a 32-bit operand. -/
def wideLines (line rows cols : Nat) (perRow perCol : Bool) : List Nat :=
  if perRow then linesOf line (32 * rows)
  else if perCol then linesOf line (32 * cols)
  else rowLines line (vecPitch cols 32) 32 rows cols

/-- B's element code. -/
def bElem (c : Core) (o : VecOps) (r k : Nat) : Nat :=
  if vImm o.vflags then o.imm else wideElem c o.bLine (o.colsM1 + 1) (vBRow o.vflags) (vBCol o.vflags) r k

/-- The lines of B. -/
def bLinesOf (o : VecOps) : List Nat :=
  if vImm o.vflags then [] else wideLines o.bLine (o.rowsM1 + 1) (o.colsM1 + 1) (vBRow o.vflags) (vBCol o.vflags)

/-- C's element code. -/
def cElem (c : Core) (o : VecOps) (r k : Nat) : Nat :=
  wideElem c o.cLine (o.colsM1 + 1) (vCRow o.vflags) (vCCol o.vflags) r k

/-- The lines of C. -/
def cLinesOf (o : VecOps) : List Nat :=
  wideLines o.cLine (o.rowsM1 + 1) (o.colsM1 + 1) (vCRow o.vflags) (vCCol o.vflags)

/-! ## Results -/

/-- One result on its way to the scratchpad: its code and what it counts. -/
structure VecCell where
  code : Nat
  sat : Nat
  cnan : Nat
  nan : Nat
  acc : Nat

/-- Whether a format can hold NaN. -/
def Fmt.hasNan (f : Fmt) : Bool := !f.isInt && f.layout.nan.isSome

/-- A value converted to FMT_OUT (R83) with `acc` lane saturations. -/
def vecCell (f : Fmt) (v : Val) (acc : Nat) : VecCell :=
  let r := conv f v
  ⟨r.code, b2n r.sat, b2n r.nan, b2n (v.isNan && f.hasNan), acc⟩

/-- Codes of `w` bits packed in bit order. -/
def packCodes (w : Nat) : List Nat → Nat
  | [] => 0
  | c :: cs => c + packCodes w cs <<< w

/-- The stored rows of a destination of `rows × cols` results in its view. -/
def storedRows {α : Type} (byCol : Bool) (rows cols : Nat) (f : Nat → Nat → α) : List (List α) :=
  if byCol then (List.range cols).map (fun k => (List.range rows).map (fun r => f r k))
  else (List.range rows).map (fun r => (List.range cols).map (fun k => f r k))

/-- The whole-line writes of stored rows of codes from a line on, zero after each row's last element (R378). -/
def storedWrites (line w : Nat) (rows : List (List Nat)) (poison flagged : Bool) : List LineWrite :=
  (rows.mapIdx (fun n cs =>
    rowWrites (line + n * vecPitch cs.length w) (w * cs.length) (packCodes w cs) poison flagged)).flatten

/-- The total of a count over stored rows. -/
def sumCells (rows : List (List VecCell)) (f : VecCell → Nat) : Nat :=
  rows.foldl (fun n cs => cs.foldl (fun n c => n + f c) n) 0

/-- A vector command's results written: zero lines with POISON when an operand is POISONED (R379), otherwise the results with
their counts; FLAGGED follows (R19). -/
def State.vecOut (s : State) (h : Holder) (reads : List Nat) (line w : Nat) (rows : List (List VecCell)) : State :=
  let u := coreOf h.queue.unit
  let b := coreBlk u
  let mk := s.cores[u].marks reads
  let out := storedWrites line w (rows.map (fun cs => cs.map (·.code))) false mk.2
  let s := (s.touchLines u reads).count (b + 0x31C) (vectorExtra reads + vectorExtra (out.map (·.line)))
  let s := s.noteMarks h.queue mk.1 mk.2
  if mk.1 then
    (s.writeLines u (some h) true (storedWrites line w (rows.map (fun cs => cs.map (fun _ => 0))) true mk.2)).worked h
  else
    let s := s.writeLines u (some h) true out
    let s := s.count (b + 0x204) (sumCells rows (·.sat))
    let s := s.count (b + 0x208) (sumCells rows (·.cnan))
    let s := s.count (b + 0x20C) (sumCells rows (·.acc))
    let s := s.count (b + 0x210) (sumCells rows (·.nan))
    s.worked h

/-- The lines that an elementwise command reads. -/
def vecReads (o : VecOps) (fi : Fmt) (needB needC : Bool) : List Nat :=
  aLines o fi.width ++ (if needB then bLinesOf o else []) ++ (if needC then cLinesOf o else [])

/-- An elementwise command: `f lanes a b c` gives the result and its lane saturations; `lanes` says integer lanes. -/
def State.runVec (s : State) (h : Holder) (o : VecOps) (needB needC : Bool)
    (f : Bool → Val → Val → Val → Val × Nat) : State :=
  match Fmt.ofCode o.fmtIn, Fmt.ofCode o.fmtOut with
  | some fi, some fo =>
    let c := s.cores[coreOf h.queue.unit]
    let il := fi == .int32
    let wide (x : Nat) : Val := if il then decode .int32 x else ofFp32 x
    let cell (r k : Nat) : VecCell :=
      let x := f il (decode fi (aElem c o fi.width r k)) (if needB then wide (bElem c o r k) else .zero)
        (if needC then wide (cElem c o r k) else .zero)
      vecCell fo x.1 x.2
    s.vecOut h (vecReads o fi needB needC) o.dLine fo.width (storedRows (vDCol o.vflags) (o.rowsM1 + 1) (o.colsM1 + 1) cell)
  | _, _ => s.worked h

/-- The FP32 rounding of an exact value (R82). -/
def round32 (v : Val) : Val := ofFp32 (fp32 v)

/-- The integer of an integer lane. -/
def Val.int : Val → Int
  | .fin s m e => scaled s m e 0
  | _ => 0

/-- An integer lane's result saturated (R82). DEDUCED (log 100). -/
def satVal (x : Int) : Val × Nat := (Val.ofInt (sat32 x).1, b2n (sat32 x).2)

/-- A lane operation: exact on integers with saturation, rounded on floating point. DEDUCED (log 100). -/
def lane (il : Bool) (x : Val) : Val × Nat := if il then satVal x.int else (round32 x, 0)

/-- VADD: a + b. -/
def vaddWork (o : VecOps) (h : Holder) (s : State) : State :=
  s.runVec h o true false (fun il a b _ => lane il (a.add b))

/-- VSUB: a − b. -/
def vsubWork (o : VecOps) (h : Holder) (s : State) : State :=
  s.runVec h o true false (fun il a b _ => lane il (a.add b.negate))

/-- VMUL: a × b. -/
def vmulWork (o : VecOps) (h : Holder) (s : State) : State :=
  s.runVec h o true false (fun il a b _ => lane il (a.mul b))

/-- VFMA: a × b + c, one rounding. -/
def vfmaWork (o : VecOps) (h : Holder) (s : State) : State :=
  s.runVec h o true true (fun il a b c => lane il ((a.mul b).add c))

/-- VMAX. -/
def vmaxWork (o : VecOps) (h : Holder) (s : State) : State :=
  s.runVec h o true false (fun _ a b _ => (a.max b, 0))

/-- VMIN. -/
def vminWork (o : VecOps) (h : Holder) (s : State) : State :=
  s.runVec h o true false (fun _ a b _ => (a.min b, 0))

/-- VUNARY's functions: copy, negate, absolute, floor, ceiling, round, truncate. -/
def unary (func : Nat) (il : Bool) (a : Val) : Val × Nat :=
  let v := if func = 0 then a else if func = 1 then a.negate else if func = 2 then a.abs else a.toIntegral func
  if il then satVal v.int else (v, 0)

/-- VUNARY. -/
def vunaryWork (o : VecOps) (h : Holder) (s : State) : State :=
  s.runVec h o false false (fun il a _ _ => unary o.func il a)

/-- VCMP's comparisons: NaN is unequal and unordered. -/
def compareVals (func : Nat) (a b : Val) : Bool :=
  if a.isNan || b.isNan then func == 1
  else if func = 0 then a.eq b else if func = 1 then !a.eq b else if func = 2 then a.lt b else !b.lt a

/-- VCMP: 1 or 0. -/
def vcmpWork (o : VecOps) (h : Holder) (s : State) : State :=
  s.runVec h o true false (fun _ a b _ => (if compareVals o.func a b then Val.ofInt 1 else .zero, 0))

/-- VSEL: a ≠ 0 ? b : c, NaN counting as non-zero. -/
def vselWork (o : VecOps) (h : Holder) (s : State) : State :=
  s.runVec h o true true (fun _ a b c => (if a.isZero then c else b, 0))

/-- VEXP2. -/
def vexp2Work (o : VecOps) (h : Holder) (s : State) : State :=
  s.runVec h o false false (fun _ a _ _ => (ofFp32 (fexp2 a), 0))

/-- VLOG2. -/
def vlog2Work (o : VecOps) (h : Holder) (s : State) : State :=
  s.runVec h o false false (fun _ a _ _ => (ofFp32 (flog2 a), 0))

/-- VRECIP. -/
def vrecipWork (o : VecOps) (h : Holder) (s : State) : State :=
  s.runVec h o false false (fun _ a _ _ => (ofFp32 (frecip a), 0))

/-- VRSQRT. -/
def vrsqrtWork (o : VecOps) (h : Holder) (s : State) : State :=
  s.runVec h o false false (fun _ a _ _ => (ofFp32 (frsqrt a), 0))

/-! ## Activations (R92) -/

/-- The FP32 value nearest to log2 e. -/
def cLog2e : Nat := 0x3FB8_AA3B
/-- The FP32 value nearest to 0.044715. -/
def cGelu1 : Nat := fp32OfQ false 44715 1000000
/-- The FP32 value nearest to √(2/π). -/
def cGelu2 : Nat := 0x3F4C_422A
/-- FP32 codes of 1, 2, 0.5 and −1. -/
def cOne : Nat := 0x3F80_0000
def cTwo : Nat := 0x4000_0000
def cHalf : Nat := 0x3F00_0000
def cMinusOne : Nat := 0xBF80_0000

/-- sigmoid: every named step rounded. -/
def sigmoid (x : Nat) : Nat :=
  let u := fmul x cLog2e
  let v := fexp2 (ofFp32 (fneg u))
  frecip (ofFp32 (fadd cOne v))

/-- tanh. -/
def tanh32 (x : Nat) : Nat := fadd (fmul cTwo (sigmoid (fmul cTwo x))) cMinusOne

/-- GELU. -/
def gelu (x : Nat) : Nat :=
  let y := fmul (fmul x x) x
  let z := ffma y cGelu1 x
  fmul (fmul cHalf x) (fadd cOne (tanh32 (fmul z cGelu2)))

/-- VACT's functions on an FP32 value; NaN passes. -/
def activation (func : Nat) (a b c : Val) : Val :=
  if a.isNan then .nan
  else if func = 0 then a.max Val.zero
  else if func = 1 then (if a.lt Val.zero then round32 (a.mul b) else a)
  else if func = 2 then (a.max b).min c
  else
    let x := fp32 a
    ofFp32 (if func = 3 then sigmoid x else if func = 4 then tanh32 x else if func = 5 then fmul x (sigmoid x) else gelu x)

/-- VACT. -/
def vactWork (o : VecOps) (h : Holder) (s : State) : State :=
  s.runVec h o (o.func == 1 || o.func == 2) (o.func == 2) (fun _ a b c => (activation o.func a b c, 0))

/-! ## Reductions (R93) -/

/-- One level of the tree: adjacent lanes combined; an absent lane passes its partner through. -/
def treeLevel (add : Val × Nat → Val × Nat → Val × Nat) : List (Option (Val × Nat)) → List (Option (Val × Nat))
  | x :: y :: rest =>
    (match x, y with
     | some p, some q => some (add p q)
     | some p, none => some p
     | none, q => q) :: treeLevel add rest
  | l => l

/-- Levels of the tree applied. -/
def treeLevels (add : Val × Nat → Val × Nat → Val × Nat) : Nat → List (Option (Val × Nat)) → List (Option (Val × Nat))
  | 0, l => l
  | n + 1, l => treeLevels add n (treeLevel add l)

/-- The two-stage sum of R93 over elements with their positions `e` in the row, lane `e mod 256` each, with its lane saturations. -/
def twoStageAt (il : Bool) (xs : List (Val × Nat)) : Val × Nat :=
  let add (p q : Val × Nat) : Val × Nat :=
    let r := lane il (p.1.add q.1)
    (r.1, p.2 + q.2 + r.2)
  let lanes := (List.range 256).map (fun l =>
    (xs.filter (fun p => p.2 % 256 == l)).foldl (fun (acc : Option (Val × Nat)) p =>
      match acc with
      | none => some (p.1, 0)
      | some a => some (add a (p.1, 0))) none)
  match treeLevels add 8 lanes with
  | some r :: _ => r
  | _ => (.zero, 0)

/-- The two-stage sum of R93 over a whole row. -/
def twoStage (il : Bool) (xs : List Val) : Val × Nat := twoStageAt il xs.zipIdx

/-- VREDUCE's functions over a row. -/
def reduceVals (func : Nat) (il : Bool) (xs : List Val) : Val × Nat :=
  if func = 0 then twoStage il xs
  else if xs.any (·.isNan) then (.nan, 0)
  else
    let ys := if func = 3 then xs.map Val.abs else xs
    let r := match ys with
      | [] => Val.zero
      | y :: t => if func = 2 then t.foldl Val.min y else t.foldl Val.max y
    if il then satVal r.int else (r, 0)

/-- The vectors that a per-row operation works on: rows, or columns under A_BY_COLUMN. -/
def vectorCount (o : VecOps) : Nat := if vACol o.vflags then o.colsM1 + 1 else o.rowsM1 + 1
/-- The length of each vector. -/
def vectorLen (o : VecOps) : Nat := if vACol o.vflags then o.rowsM1 + 1 else o.colsM1 + 1
/-- Element `e` of vector `v`. -/
def vectorElem (c : Core) (o : VecOps) (w v e : Nat) : Nat := if vACol o.vflags then aElem c o w e v else aElem c o w v e

/-- VREDUCE: one result per row, or per column, packed from D_LINE. -/
def vreduceWork (o : VecOps) (h : Holder) (s : State) : State :=
  match Fmt.ofCode o.fmtIn, Fmt.ofCode o.fmtOut with
  | some fi, some fo =>
    let c := s.cores[coreOf h.queue.unit]
    let il := fi == .int32
    let one (v : Nat) : VecCell :=
      let r := reduceVals o.func il ((List.range (vectorLen o)).map (fun e => decode fi (vectorElem c o fi.width v e)))
      vecCell fo r.1 r.2
    s.vecOut h (aLines o fi.width) o.dLine fo.width [(List.range (vectorCount o)).map one]
  | _, _ => s.worked h

/-! ## VEPILOGUE without group output -/

/-- Per-column operands of VEPILOGUE: b, then slope, or LO and HI, after the COLS values of b. -/
def epiOperand (c : Core) (o : VecOps) (n k : Nat) : Val := ofFp32 (c.bitsAt o.bLine (32 * (n * (o.colsM1 + 1) + k)) 32)

/-- The lines VEPILOGUE reads besides A. -/
def epiLines (o : VecOps) : List Nat :=
  let f := o.func % 128
  let n := (o.colsM1 + 1) * (if f = 1 then 2 else if f = 2 then 3 else 1)
  (if vImm o.vflags && decide (f ≠ 1) && decide (f ≠ 2) then [] else linesOf o.bLine (32 * n)) ++
    linesOf o.cLine (32 * (o.colsM1 + 1))

/-- act(a × b + c) of one element; the sum is rounded once. -/
def epiValue (c : Core) (o : VecOps) (fi : Fmt) (r k : Nat) : Val :=
  let f := o.func % 128
  let b := if vImm o.vflags then ofFp32 o.imm else epiOperand c o 0 k
  let x := round32 (((decode fi (aElem c o fi.width r k)).mul b).add (ofFp32 (c.bitsAt o.cLine (32 * k) 32)))
  activation f x (epiOperand c o 1 k) (epiOperand c o 2 k)

end Sys2Proof.Machine
end

