-- ==== Sys2Proof/Machine/Collective.lean ====
section
/-! DEFINITION. Machine/Collective.lean: collectives across a Solder domain (R297-R300), and publication (R258, R259). -/

namespace Sys2Proof.Machine

open Sys2Proof

/-! ## Members and chunks (R297, R298) -/

/-- The dimensions that a scope runs along, in the order of its reductions. -/
def scopeDims (dims : List Nat) (scope : Nat) : List Nat :=
  (match scope with
   | 0 => [0, 1, 2]
   | 1 => [0]
   | 2 => [1]
   | 3 => [2]
   | _ => [0, 1]).filter (fun d => decide (1 < dims.getD d 1))

/-- The members of a scope through a device, in ascending order of device number (of coordinate, along a ring). -/
def members (dims : List Nat) (own scope : Nat) : List Nat :=
  let n := dims.foldl (· * ·) 1
  let ds := scopeDims dims scope
  (List.range n).filter (fun m => (List.range 3).all (fun d =>
    ds.contains d || (coords dims m).getD d 0 == (coords dims own).getD d 0))

/-- The segments of elements that a device holds before each stage of a reduction and after the last: each stage of `P` members cuts a segment
into chunks of ⌈length / P⌉ and the device keeps the chunk of its coordinate. -/
def segments (dims : List Nat) (own : Nat) : List Nat → Nat → Nat → List (Nat × Nat)
  | [], lo, hi => [(lo, hi)]
  | d :: ds, lo, hi =>
    let c := ceilDiv (hi - lo) (dims.getD d 1)
    let m := (coords dims own).getD d 0
    (lo, hi) :: segments dims own ds (min hi (lo + m * c)) (min hi (lo + (m + 1) * c))

/-- Stages of a collective's reduction on this device. -/
def State.collDims (s : State) (o : CollOps) : List Nat := scopeDims s.dims o.scope

/-- The segment held before stage `j`. -/
def State.seg (s : State) (o : CollOps) (j : Nat) : Nat × Nat :=
  (segments s.dims s.device (s.collDims o) 0 o.elements).getD j (0, 0)

/-- The device at coordinate `c` of the ring of stage `j`. -/
def State.ringDevice (s : State) (o : CollOps) (j c : Nat) : Nat :=
  let d := (s.collDims o).getD j 0
  deviceAt s.dims ((coords s.dims s.device).set d c)

/-- Members of the ring of stage `j` and this device's place in it. -/
def State.ring (s : State) (o : CollOps) (j : Nat) : Nat × Nat :=
  let d := (s.collDims o).getD j 0
  (s.dims.getD d 1, (coords s.dims s.device).getD d 0)

/-! ## Elements -/

/-- Bytes of one member's input. -/
def inputBytes (o : CollOps) : Nat :=
  match Fmt.ofCode o.fmt with | some f => ceilDiv (o.elements * f.width) 8 | none => o.elements

/-- An input element as the reduction keeps it (R298): an FP32 code, or an INT32 code. -/
def widen (f : Fmt) (code : Nat) : Nat := if f = .int32 then code else fp32 (decode f code)

/-- One step of a reduction (R298): FP32 addition rounds, INT32 addition saturates; whether it saturated. DESIGN CHOICE (log 48). -/
def combineElem (op : Nat) (int : Bool) (a b : Nat) : Nat × Bool :=
  if int then
    let x := signed 32 a
    let y := signed 32 b
    match op with
    | 0 => let r := sat32 (x + y); (unsigned 32 r.1, r.2)
    | 1 => (unsigned 32 (max x y), false)
    | _ => (unsigned 32 (min x y), false)
  else
    match op with
    | 0 => (fadd a b, false)
    | 1 => (fp32 ((ofFp32 a).max (ofFp32 b)), false)
    | _ => (fp32 ((ofFp32 a).min (ofFp32 b)), false)

/-- The output bytes of reduced elements: FP32 and INT32 as they are, BF16 converted once (R83). -/
def outputBytes (o : CollOps) (xs : List Nat) : List Byte :=
  match Fmt.ofCode o.fmt with
  | some .bf16 => xs.flatMap (fun x => leBytes 2 (conv .bf16 (ofFp32 x)).code)
  | _ => xs.flatMap (leBytes 4)

/-! ## Packets: byte 0 says digest (0), abort (1), reduction step (2), result (3) or input data (4) -/

/-- What the digest of a collective covers (R299). -/
def collDigest (o : CollOps) : List Byte :=
  leBytes 1 o.op ++ leBytes 1 o.fmt ++ leBytes 1 o.scope ++ leBytes 1 o.collId ++ leBytes 4 o.elements

/-- A COLL packet. DESIGN CHOICE (log 48). -/
def State.sendColl (s : State) (o : CollOps) (peer kind stage at0 : Nat) (data : List Byte) : State :=
  let p := leBytes 1 kind ++ leBytes 1 stage ++ leBytes 2 0 ++ leBytes 4 at0 ++ data
  s.sendPacket ⟨6, 2, 0, peer, s.device, o.collId, p.length, 0, p⟩ none

/-- Elements sent in packets of at most 62. -/
def State.sendElems (s : State) (o : CollOps) (peer kind stage lo : Nat) (xs : List Nat) : State :=
  (List.range (ceilDiv xs.length 62)).foldl (fun s i =>
    s.sendColl o peer kind stage (lo + 62 * i) (((xs.drop (62 * i)).take 62).flatMap (leBytes 4))) s

/-- Bytes sent in packets of at most 248. -/
def State.sendBytes (s : State) (o : CollOps) (peer : Nat) (bs : List Byte) : State :=
  (List.range (ceilDiv bs.length 248)).foldl (fun s i => s.sendColl o peer 4 0 (248 * i) ((bs.drop (248 * i)).take 248)) s

/-! ## The collective on this device -/

/-- The collective of an identifier. -/
def State.coll (s : State) (id : Nat) : Option Coll := s.colls.find? (fun c => c.ops.collId == id)

/-- A collective's record set. -/
def State.setColl (s : State) (c : Coll) : State :=
  { s with colls := c :: s.colls.filter (fun x => x.ops.collId != c.ops.collId) }

/-- A collective ended: its record goes and its command's work is finished. -/
def State.dropColl (s : State) (c : Coll) : State :=
  { s with colls := s.colls.filter (fun x => x.ops.collId != c.ops.collId) }.worked c.holder

/-- A collective that ends without writing DST (R299). -/
def State.failColl (s : State) (c : Coll) : State := ((s.dropColl c).count rSldCollBad 1).setBroken

/-- Whether all elements of a segment have reached a level. -/
def Coll.ready (c : Coll) (seg : Nat × Nat) (l : Nat) : Bool :=
  (List.range (seg.2 - seg.1)).all (fun i => decide (l ≤ c.level.getD (seg.1 + i) 0))

/-- Elements `lo` to `hi`. -/
def Coll.elems (c : Coll) (lo hi : Nat) : List Nat := (List.range (hi - lo)).map (fun i => c.work.getD (lo + i) 0)

/-- Values placed from element `lo` on at a level. -/
def Coll.place (c : Coll) (lo l : Nat) (xs : List Nat) : Coll :=
  { c with
    work := xs.zipIdx.foldl (fun w x => w.set (lo + x.2) x.1) c.work
    level := xs.zipIdx.foldl (fun w x => w.set (lo + x.2) l) c.level }

/-- Stages of 10 + j reduce in ring j; 30 + j wait for the results of ring j; 50 writes DST. -/
def stageReduce (j : Nat) : Nat := 10 + j
def stageGather (j : Nat) : Nat := 30 + j

/-- Level of a final element. -/
def finalLevel : Nat := 9

/-- The reduction of ring j begins on this device: it sends its own elements of the chunk that starts with it (R298). -/
def State.beginRing (s : State) (c : Coll) (j : Nat) : State :=
  let seg := s.seg c.ops j
  let r := s.ring c.ops j
  let w := ceilDiv (seg.2 - seg.1) r.1
  let k := (r.2 + (r.1 - 1)) % r.1
  let lo := min seg.2 (seg.1 + k * w)
  let hi := min seg.2 (seg.1 + (k + 1) * w)
  (s.setColl { c with stage := stageReduce j }).sendElems c.ops (s.ringDevice c.ops j ((r.2 + 1) % r.1)) 2 j lo (c.elems lo hi)

/-- The results that this device holds sent to the other members of ring j. -/
def State.beginGather (s : State) (c : Coll) (j : Nat) : State :=
  let seg := s.seg c.ops (j + 1)
  let r := s.ring c.ops j
  ((List.range r.1).filter (· != r.2)).foldl (fun s m =>
    s.sendElems c.ops (s.ringDevice c.ops j m) 3 j seg.1 (c.elems seg.1 seg.2)) (s.setColl { c with stage := stageGather j })

/-- DST is written, from where the engine stands; then the command's work is finished. -/
def State.writeColl (s : State) (c : Coll) : State :=
  match s.writeSpan (c.result.length / 4096 + 3) c.holder c.ops.dst c.result with
  | (true, s1) => s1.dropColl c
  | (false, s1) => s1

/-- The result is known. -/
def State.endColl (s : State) (c : Coll) (bs : List Byte) : State :=
  let c := { c with stage := 50, result := bs }
  let s := s.setColl c
  (s.setMover c.holder { s.mover c.holder with next := 0, buf := [] }).writeColl c

/-- A stage that is complete moves on to the next (R298): reductions along X, Y and Z, then gathering in the reverse order. -/
def State.stageOn : Nat → State → Nat → State
  | 0, s, _ => s
  | n + 1, s, id =>
    match s.coll id with
    | none => s
    | some c =>
      let ds := s.collDims c.ops
      if 10 ≤ c.stage ∧ c.stage < 30 then
        let j := c.stage - 10
        if c.ready (s.seg c.ops (j + 1)) (j + 1) then
          if j + 1 < ds.length then (s.beginRing c (j + 1)).stageOn n id
          else
            let seg := s.seg c.ops (j + 1)
            let c := c.place seg.1 finalLevel (c.elems seg.1 seg.2)
            (s.beginGather c j).stageOn n id
        else s
      else if 30 ≤ c.stage ∧ c.stage < 50 then
        let j := c.stage - 30
        if c.ready (s.seg c.ops j) finalLevel then
          if j = 0 then s.endColl c (outputBytes c.ops (c.elems 0 c.ops.elements))
          else (s.beginGather c (j - 1)).stageOn n id
        else s
      else if c.stage = 2 then
        let ms := if c.ops.op = 3 then members s.dims s.device c.ops.scope else (members s.dims s.device c.ops.scope).take 1
        let got (m : Nat) : List Byte := if m = s.device then c.own else look [] c.gathered m
        if ms.all (fun m => decide (inputBytes c.ops ≤ (got m).length)) then s.endColl c (ms.flatMap got) else s
      else s

/-- A data packet taken by a collective that is ready for it (R298); `none` when it must wait. DESIGN CHOICE (log 48). -/
def State.takeColl (s : State) (c : Coll) (k : Packet) : Option State :=
  let kind := leAt k.payload 0 1
  let j := leAt k.payload 1 1
  let at0 := leAt k.payload 4 4
  let data := k.payload.drop 8
  let xs := (List.range (data.length / 4)).map (fun i => leAt data (4 * i) 4)
  if kind = 2 then
    if c.stage < stageReduce j then none
    else
      let seg := s.seg c.ops j
      let r := s.ring c.ops j
      let w := ceilDiv (seg.2 - seg.1) r.1
      let chunk := (at0 - seg.1) / max 1 w
      let rs := xs.zipIdx.map (fun x => combineElem c.ops.op (Fmt.ofCode c.ops.fmt == some .int32) x.1 (c.work.getD (at0 + x.2) 0))
      let s := s.count rSldCollSat (rs.filter (·.2)).length
      let ys := rs.map (·.1)
      if chunk = r.2 then some (s.setColl (c.place at0 (j + 1) ys))
      else some (s.sendElems c.ops (s.ringDevice c.ops j ((r.2 + 1) % r.1)) 2 j at0 ys)
  else if kind = 3 then
    if c.stage < 10 then none else some (s.setColl (c.place at0 finalLevel xs))
  else
    some (s.setColl { c with gathered := tweak [] c.gathered k.src (fun b => b.take at0 ++ data) })

/-- Waiting packets offered again, oldest first. -/
def State.offerColl : Nat → State → Nat → State
  | 0, s, _ => s
  | n + 1, s, id =>
    match s.coll id with
    | none => s
    | some c =>
      let try_ (k : Packet) : Option State := (s.setColl { c with inbox := c.inbox.filter (fun x => x != k) }).takeColl
        { c with inbox := c.inbox.filter (fun x => x != k) } k
      match c.inbox.findSome? try_ with
      | some s1 => (s1.stageOn 8 id).offerColl n id
      | none => s

/-- Every member's digest has arrived: the exchange begins, or the collective ends without a result (R299). -/
def State.startColl (s : State) (c : Coll) : State :=
  let ms := (members s.dims s.device c.ops.scope).filter (· != s.device)
  if c.bad then s.failColl c
  else if ms.all (fun m => c.heard.contains m) then
    let c := { c with since := s.now }
    let s1 :=
      if c.ops.op < 3 then
        if (s.collDims c.ops).isEmpty then s.endColl c (outputBytes c.ops c.work)
        else (s.beginRing c 0).stageOn 8 c.ops.collId
      else
        let sends := c.ops.op == 3 || (members s.dims s.device c.ops.scope).head? == some s.device
        let s := s.setColl { c with stage := 2 }
        (if sends then ms.foldl (fun s m => s.sendBytes c.ops m c.own) s else s).stageOn 8 c.ops.collId
    s1.offerColl (c.inbox.length + 1) c.ops.collId
  else s

/-- A COLL packet for this device taken by its collective, or kept until the collective starts here (R297, R299). PEER_WAIT takes the time since the last step (R300). -/
def State.collPacket (s : State) (k : Packet) : State :=
  let kind := leAt k.payload 0 1
  match s.coll k.channel with
  | none =>
    if kind = 1 ∧ ¬ s.early.any (fun x => x.channel == k.channel && x.src == k.src) then s
    else { s with early := s.early ++ [k] }
  | some c =>
    if kind ≤ 1 then
      let bad := kind == 1 || k.payload.drop 8 != collDigest c.ops
      let c := { c with heard := c.heard ++ [k.src], bad := c.bad || bad }
      if bad then (s.setColl c).failColl c
      else if c.stage = 1 then (s.setColl c).startColl c
      else s.setColl c
    else
      let s := if 2 ≤ c.stage then s.count rSldPeerWait ((s.now - c.since) / 16000) else s
      let c := { c with inbox := c.inbox ++ [k], since := s.now }
      if c.stage < 2 then s.setColl c else (s.setColl c).offerColl (c.inbox.length + 1) k.channel

/-- SLD_COLL goes on from where it stands: SRC is read, the digest is sent, packets that came early are taken. -/
def State.runColl (s : State) (h : Holder) (o : CollOps) : State :=
  match s.coll o.collId with
  | some c => if c.holder = h ∧ c.stage = 50 then s.writeColl c else s
  | none =>
    let n := inputBytes o
    match s.readBlock (n / 4096 + 3) h o.src n with
    | (false, s1) => s1
    | (true, s1) =>
      let own := (s1.mover h).buf
      let f := (Fmt.ofCode o.fmt).getD .fp32
      let bits := leNat own
      let work := if o.op < 3 then (List.range o.elements).map (fun e => widen f (field bits (f.width * e) f.width)) else []
      let mine := s1.early.filter (fun k => k.channel == o.collId)
      let c : Coll := ⟨h, o, 1, [], false, own, work, work.map (fun _ => 0), [], [], [], s1.now⟩
      let ms := (members s1.dims s1.device o.scope).filter (· != s1.device)
      let s2 := { s1 with early := s1.early.filter (fun k => k.channel != o.collId) }.setColl c
      let s2 := ms.foldl (fun s m => s.sendColl o m 0 0 0 (collDigest o)) s2
      let s3 := mine.foldl (fun s k => s.collPacket k) s2
      if ms.isEmpty then s3.startColl c else s3

/-- SLD_COLL (R297): the work of one command. -/
def sldCollWork (o : CollOps) (h : Holder) (s : State) : State := s.runColl h o

/-- A kill ends this member's collectives: the others are told, and complete in the same way (R299). -/
def State.killColls (s : State) : State :=
  let s := s.colls.foldl (fun s c =>
    ((members s.dims s.device c.ops.scope).filter (· != s.device)).foldl (fun s m => s.sendColl c.ops m 1 0 0 []) s) s
  { s with colls := [] }

/-! ## Publication (R258, R259) -/

/-- PUB_OPEN: 32 zero bytes at HDR. -/
def pubOpenWork (o : PubOps) (h : Holder) (s : State) : State := (s.winWrite o.hdr (List.replicate 32 0)).worked h

/-- PUB: the unit's counter steps and the header of the channel's completed pass is written with it. -/
def pubWork (o : PubOps) (h : Holder) (s : State) : State :=
  let k := unitIdx h.queue.unit * 16 + o.pctr
  let seq := seqNext (look 0 s.job.pubCount k)
  let c := s.chan o.channel
  let s := { s with job := { s.job with pubCount := put 0 s.job.pubCount k seq } }
  let s := s.onChan o.channel (fun c => { c with taken := c.passes })
  (s.winWrite o.hdr (pubHeader seq o.slot c.last)).worked h

end Sys2Proof.Machine
end

