-- ==== Sys2Proof/Machine/BackEnd.lean ====
section
/-! DEFINITION. Machine/BackEnd.lean: the picture back end and PP_BROWS (R204-R212). -/

namespace Sys2Proof.Machine

open Sys2Proof

/-- The back end's sets in effect for a camera. -/
def Camera.beCfg (k : Camera) : BeCfg :=
  ⟨(setBlock k.bsets 0).getD [], setBlock k.bsets 1, setBlock k.bsets 2, setBlock k.bsets 3, (setBlock k.bsets 4).getD []⟩

/-- The back end starts a frame of a camera: pending sets whose target has come take effect (R205). -/
def State.backStart (s : State) (c : Nat) (i : FrameInfo) : State :=
  s.onCam c (fun k =>
    let d := dueSets k.bsets k.bpending i.frame i.epoch (fun _ => true)
    { k with bsets := d.1, bpending := d.2.1, back := some (i.frame, i.epoch) })

/-- The tokens of an output's pass (R204). -/
def outputToks (i : Nat) (e : Entry) (info : FrameInfo) (flagged poisoned : Bool) (data : List Byte) : List OutTok :=
  let tb := max 1 e.tokenBytes
  let n := max 1 (ceilDiv data.length tb)
  (List.range n).map (fun k =>
    let d := slice data (k * tb) tb
    ⟨i, ⟨k == 0, k + 1 == n, false, flagged, poisoned, false⟩, info.frame, info.epoch, info.ts, d, d⟩)

/-- One output of a frame (R207 step 4): its tokens wait for credit, its counts are taken, and its extremes kept for the next frame. -/
def State.backOutput (s : State) (n c : Nat) (info : FrameInfo) (flagged poisoned : Bool) (im : Image) (o : Nat) : State :=
  let slot := match s.camDest c with | some d => d.2 | none => 0
  let k := (s.cam c).beCfg
  match s.chanFrom 0x03 n (0x30 + 3 * slot + o) with
  | none => s
  | some i =>
    if k.format o = 0 then s
    else
      let sc := k.scaled im o
      let e := (s.chan i).ent
      if k.format o < 0x38 then
        s.onPipe n (fun p => { p with outq := p.outq ++ outputToks i e info flagged poisoned (k.picture sc o) })
      else
        let tin : Image := if k.colour o = 0 then sc else sc.map (fun r => r.map (toYcc (k.colour o)))
        let prev := ((s.cam c).spread.drop (3 * o)).take 3
        let r := k.tensor tin o prev
        let now := (List.range 3).map (spreadOf tin)
        let s := (s.count (rPp n 0x50C) r.2.1).count (rPp n 0x508) r.2.2
        let s := s.onCam c (fun q =>
          let sp := if q.spread.isEmpty then List.replicate 9 (0, 0x3F80_0000) else q.spread
          { q with spread := (List.range 3).foldl (fun l x => l.set (3 * o + x) (now.getD x (0, 0))) sp })
        s.onPipe n (fun p => { p with outq := p.outq ++ outputToks i e info flagged poisoned r.1 })

/-- Output tokens issued while credits last. -/
def State.drainBack (s : State) (n : Nat) : State :=
  let r := s.drainToks (s.pipe n).outq (cShedDrop (.back ⟨n % 4, Nat.mod_lt _ (by decide)⟩))
  r.1.onPipe n (fun p => { p with outq := r.2 })

/-- A whole frame through the back end (R206, R207): completed with zero rows or cut to IN_H, BE_GEOMETRY counted once. -/
def State.backFrame (s : State) (n c : Nat) (info : FrameInfo) (flagged poisoned : Bool) (rows : Image) : State :=
  let k := (s.cam c).beCfg
  let h := k.inH
  let short := decide (rows.length < h)
  let s := if rows.length ≠ h then s.count (rPp n 0x510) 1 else s
  let full : Image := (rows ++ List.replicate (h - rows.length) (List.replicate k.inW [0, 0, 0])).take h
  let im : Image := full.map (fun r => r.map k.colourTone)
  let s := (List.range 3).foldl (fun s o => s.backOutput n c info (flagged || short) poisoned im o) s
  s.drainBack n

/-- The FP32 code of an element of a row format: FP16, or INT16 read as q × 2^-15 (PP_BROWS). -/
def rowElem (f : Option Fmt) (code : Nat) : Nat :=
  match f with
  | some .int16 => fp32 ((Val.ofInt (signed 16 code)).mul (.fin false 1 (-15)))
  | some f => fp32 (decode f code)
  | none => code

/-- The classical path (R207, R208): the demosaic of a frame's mosaic as its front end emitted it. -/
def State.classical (s : State) (n c : Nat) (f : Frame) (info : FrameInfo) : State :=
  let k := s.feCfg n c f
  let ls := f.exps.map (·.lines)
  let pad := (s.camEnt c).padValue
  let v (y x : Nat) : Nat := rowElem k.out (k.output (k.merged ls pad y x)).code
  let im := demosaic v (fun y x => k.colour y x) k.height k.width
  s.backFrame n c info info.flagged info.poisoned im

/-! ## PP_BROWS (R206) -/

/-- The pixel rows of one row read from memory: one with 3 channels, two with 12. -/
def browsRows (fmt : Option Fmt) (channels w : Nat) (bs : List Byte) : Image :=
  let x (i : Nat) : Nat := rowElem fmt (leAt bs (2 * i) 2)
  if channels = 12 then
    (List.range 2).map (fun dy => (List.range w).map (fun px => (List.range 3).map (fun c =>
      x (px / 2 * 12 + 3 * (2 * dy + px % 2) + c))))
  else [(List.range w).map (fun px => (List.range 3).map (fun c => x (3 * px + c)))]

/-- The rows of a PP_BROWS from where it stands. -/
def State.browsLoop : Nat → State → Holder → BRowsOps → Nat → State × Bool
  | 0, s, _, _, _ => (s, true)
  | k + 1, s, h, o, n =>
    let m := s.mover h
    if o.rows ≤ m.next then (s, true)
    else
      let w := (s.cam o.camera).beCfg.inW
      let len := if o.channels = 12 then w / 2 * 24 else w * 6
      match s.readBlock (len / 4096 + 3) h (o.addr + m.next * o.pitch * 64) len with
      | (false, s1) => (s1, false)
      | (true, s1) =>
        let m1 := s1.mover h
        let rs := browsRows (Fmt.ofCode o.fmt) o.channels w m1.buf
        let s2 := s1.setMover h { m1 with buf := [], poisoned := false, next := m1.next + 1 }
        (s2.onPipe n (fun p => { p with back := p.back.map (fun b => { b with
          rows := b.rows ++ rs, poisoned := b.poisoned || m1.poisoned }) })).browsLoop k h o n

/-- PP_BROWS goes on (R206): FRAME_START pairs a new frame with the oldest frame record not yet used, rows are read,
and FRAME_END runs the frame to its outputs; the command's work ends when those tokens have been issued. -/
def State.runBRows (s : State) (h : Holder) (o : BRowsOps) : State :=
  let n := pipeOf h.queue.unit
  let m := s.mover h
  if !(s.pipe n).outq.isEmpty then s.setMover h { m with stall := .slot }
  else if m.sent = 1 then s.worked h
  else
    let start : Bool × State :=
      if m.spent then (true, s)
      else if o.bflags.testBit 0 then
        match (s.cam o.camera).records with
        | [] => (false, s.setMover h { m with stall := .slot })
        | i :: rest =>
          let s := (s.onCam o.camera (fun k => { k with records := rest })).backStart o.camera i
          (true, s.onPipe n (fun p => { p with back := some ⟨o.camera, i, [], i.flagged, i.poisoned⟩ }))
      else (true, s)
    match start with
    | (false, s1) => s1
    | (true, s1) =>
      let s1 := s1.setMover h { s1.mover h with spent := true, stall := .none }
      match s1.browsLoop (o.rows + 1) h o n with
      | (s2, false) => s2
      | (s2, true) =>
        if o.bflags.testBit 1 then
          match (s2.pipe n).back with
          | some b =>
            let s3 := (s2.onPipe n (fun p => { p with back := none })).backFrame n b.camera b.info b.flagged b.poisoned b.rows
            let s3 := s3.setMover h { s3.mover h with sent := 1 }
            if (s3.pipe n).outq.isEmpty then s3.worked h else s3.setMover h { s3.mover h with stall := .slot }
          | none => s2.worked h
        else s2.worked h

/-- PP_BROWS: the work of one command. -/
def ppBRowsWork (o : BRowsOps) (h : Holder) (s : State) : State := s.runBRows h o

end Sys2Proof.Machine
end

