-- ==== Sys2Proof/WellFormed.lean ====
section
/-! DEFINITION. WellFormed.lean: the ranges and alignments that the operand tables give (R62, R77, R91, R158 and the tables of the chapters).

`Body.wf` is what the loader's check 14 asks of operands that needs nothing but the command itself;
`Instr.wf` is the same for a command of the block's table. -/

namespace Sys2Proof

/-- The queue numbers that a unit has (R58, R305). -/
def UnitId.ports : UnitId → List Nat
  | .tc _ => [0, 1, 2, 3, 4]
  | .ee _ => [0, 1, 3]
  | .invar => [0, 1, 2, 3]
  | _ => [0]

/-- A queue that exists (R58). -/
def QueueId.wf (q : QueueId) : Bool := q.unit.ports.contains q.port

/-- The header's ranges (R61): counters below 64, a 16-bit value and a 14-bit unit. -/
def Header.wf (h : Header) : Bool :=
  decide (h.waitCtr < 64) && decide (h.signalCtr < 64) && decide (h.waitValue < 2 ^ 16) && decide (h.signalUnit < 2 ^ 14)

/-- An element format code of R79 other than the scale code. -/
def isElement (f : Nat) : Bool := decide (1 ≤ f) && decide (f ≤ 12)

/-- The array operand formats (R84): INT4, INT8, INT16, the FP4, FP6 and FP8 formats, BF16 and FP16. -/
def isArrayFormat (f : Nat) : Bool := decide (1 ≤ f) && decide (f ≤ 10)

/-- An integer element format. -/
def isIntFormat (f : Nat) : Bool := decide (1 ≤ f) && decide (f ≤ 3) || f == 11

/-- An array format of 16 bits in floating point. -/
def isHalfFloat (f : Nat) : Bool := f == 9 || f == 10

/-- A narrow format: one that VQUANT writes (R104). -/
def isNarrow (f : Nat) : Bool := decide (1 ≤ f) && decide (f ≤ 8)

/-- FP32, BF16 or FP16. -/
def isWide (f : Nat) : Bool := f == 12 || f == 9 || f == 10

/-- The pairing rule (R84): BF16 and FP16 pair only with BF16 or FP16. -/
def pairs (a b : Nat) : Bool := isHalfFloat a == isHalfFloat b

/-- Bit `n` of a number. -/
def flag (x n : Nat) : Bool := x.testBit n

/-- What R77 asks of a MATMUL's own fields; MATMUL_S2 may not set ACC_INT (R96). -/
def MatmulOps.wf (o : MatmulOps) (s2 : Bool) : Bool :=
  let sc := flag o.mode 5 || flag o.mode 6 || flag o.mode 7
  decide (o.mode < 512) && decide (o.accLine % 8 = 0) && isArrayFormat o.fmtA && isArrayFormat o.fmtB && pairs o.fmtA o.fmtB &&
  decide (o.mode / 8 % 4 ≠ 3) && !(sc && (isHalfFloat o.fmtA || isHalfFloat o.fmtB)) &&
  !(flag o.mode 8 && (!isIntFormat o.fmtA || !isIntFormat o.fmtB || sc || s2)) &&
  (sc || s2 || o.scaleLine == 0) && decide (o.kM1 < 65536) && decide (o.mM1 < 128) && decide (o.nM1 < 128)

/-- What R91 asks of every vector command: at most one of B_IMM, B_PER_ROW and B_PER_COL, not both C_PER_ROW and C_PER_COL. -/
def VecOps.flagsOk (o : VecOps) : Bool :=
  let n := (if flag o.vflags 0 then 1 else 0) + (if flag o.vflags 1 then 1 else 0) + (if flag o.vflags 2 then 1 else 0)
  decide (o.vflags < 128) && decide (n ≤ 1) && !(flag o.vflags 3 && flag o.vflags 4)

/-- A vector command with element formats, FUNC at most `func`, and INT32 lanes only where they are valid (R91). -/
def VecOps.wf (o : VecOps) (func : Nat) (ints : Bool) : Bool :=
  o.flagsOk && isElement o.fmtIn && isElement o.fmtOut && decide (o.func ≤ func) && (ints || o.fmtIn != 11)

/-- What R158 asks of WCONV's own fields. -/
def WConvOps.wf (o : WConvOps) : Bool :=
  decide (o.mode < 1024) && !flag o.mode 1 && !flag o.mode 2 && !flag o.mode 5 && decide (o.mode / 8 % 4 ≠ 3) &&
  isArrayFormat o.fmtB && !((flag o.mode 7 || flag o.mode 6) && (isHalfFloat o.fmtB || o.fmtB == 3)) &&
  !(flag o.mode 8 && (!isIntFormat o.fmtB || flag o.mode 9 || flag o.mode 6 || flag o.mode 7)) &&
  decide (o.accLine % 8 = 0) && (flag o.mode 6 || flag o.mode 7 || flag o.mode 9 || o.scaleLine == 0) && decide (o.mM1 < 128) && decide (o.nM1 < 128)

/-- The operands' ranges and alignments. -/
def Body.wf : Body → Bool
  | .nop => true
  | .launchAt o => decide (o.timer < 64) && decide (o.mode ≤ 1) && decide (o.tick < 2 ^ 64)
  | .jump o => decide (o.target < 2 ^ 32) && decide (o.count < 2 ^ 32) && decide (o.slot < 4)
  | .barrier o => decide (o.id < 16) && decide (o.scope ≤ 1) && decide (o.advance ≤ 1)
  | .complete o => decide (o.doorbell < 64) && decide (1 ≤ o.ringPages) && decide (o.ringPages ≤ 16)
  | .timeRead o => decide (o.dest % 8 = 0) && decide (o.kind ≤ 1)
  | .xfer o => decide (o.descAddr % 64 = 0) && decide (o.descKind ≤ 1) && decide (o.xflags < 8)
  | .pgPolicy o => decide (1 ≤ o.pages) && decide (o.pages ≤ 2 ^ 24) && decide (o.fill ≤ 3) && decide (o.device < 1024)
  | .pgTouch o => decide (1 ≤ o.pages) && decide (o.pages ≤ 2 ^ 24) && decide (o.fill ≤ 1) && o.device == 0
  | .spFill o => decide (1 ≤ o.lines) && decide (o.lines ≤ 782336)
  | .spCopy _ => true
  | .nWrite o => decide (o.marks < 4)
  | .spCredit o => decide (1 ≤ o.count) && decide (o.count ≤ 255)
  | .matmul o => o.wf false
  | .matmulS2 o => o.wf true
  | .vadd o => o.wf 255 true
  | .vsub o => o.wf 255 true
  | .vmul o => o.wf 255 true
  | .vfma o => o.wf 255 false
  | .vmax o => o.wf 255 true
  | .vmin o => o.wf 255 true
  | .vunary o => o.wf 6 (decide (o.func ≤ 2))
  | .vcmp o => o.wf 3 true
  | .vsel o => o.wf 255 true
  | .vexp2 o => o.wf 255 false
  | .vlog2 o => o.wf 255 false
  | .vrecip o => o.wf 255 false
  | .vrsqrt o => o.wf 255 false
  | .vact o => o.wf 6 false
  | .vreduce o => o.wf 3 true
  | .vepilogue o => o.wf 255 false && decide (o.func % 128 ≤ 6) && !(flag o.func 7 && flag o.vflags 0)
  | .vqs2 o => o.wf 1 false && isWide o.fmtIn && isNarrow o.fmtOut
  | .vquant o => o.wf 255 false && isWide o.fmtIn && isNarrow o.fmtOut
  | .vdequant o => o.wf 255 false && isNarrow o.fmtIn && isWide o.fmtOut
  | .vrescale o => o.wf 255 true && o.fmtIn == 11 && decide (o.fmtOut ≤ 3)
  | .vpool o => o.wf 3 false && o.aLine == 0 && o.cLine == 0
  | .vargmax o => o.wf 1 false && (o.fmtOut == 3 || o.fmtOut == 11) &&
      !(o.fmtOut == 3 && decide (32768 ≤ (if flag o.vflags 5 then o.rowsM1 else o.colsM1)))
  | .vpoolBwd o => o.wf 2 false && o.aLine == 0
  | .wconv o => o.wf
  | .wconvDiag o => o.wf
  | .ewin o => decide (o.descAddr % 64 = 0) && decide (o.coutM1 < 64) && isElement o.fmtOut && decide (o.eflags < 16) &&
      decide (o.eflags % 4 ≠ 3) && decide (o.credits < 256)
  | .ppParam o => decide (o.addr % 64 = 0) && decide (o.camera < 16) && decide (o.group < 8) && decide (o.mode ≤ 1)
  | .ppBand o => decide (o.camera < 16) && decide (1 ≤ o.cores) && decide (o.cores ≤ 6) && decide (1 ≤ o.bandRows) && decide (o.halo ≤ 16)
  | .ppBParam o => decide (o.addr % 64 = 0) && decide (o.camera < 16) && decide (o.group < 8) && o.mode == 0
  | .ppBRows o => decide (o.camera < 16) && (o.fmt == 3 || o.fmt == 10) && decide (1 ≤ o.rows) && (o.channels == 3 || o.channels == 12) &&
      decide (o.bflags < 4)
  | .pub o => decide (o.hdr % 32 = 0) && decide (o.hdr < 8192 * 4096) && decide (o.pctr < 16)
  | .pubOpen o => decide (o.hdr % 32 = 0) && decide (o.hdr < 8192 * 4096) && o.channel == 0 && o.slot == 0 && o.pctr == 0
  | .pinSet o => decide (o.pin < 32) && decide (o.level ≤ 2)
  | .pinPulse o => decide (o.pin < 32) && decide (0 < o.width)
  | .pgStart o => decide (o.pg < 32) && decide (o.pin < 32) && decide (0 < o.width) && decide (1 ≤ o.periodD) &&
      decide (64 * o.periodD ≤ o.periodN) && decide (o.width * o.periodD < o.periodN)
  | .pgStop o => decide (o.pg < 32)
  | .capArm o => decide (o.pin < 32) && decide (o.edges < 4) && decide (o.length ≤ o.period)
  | .capDisarm o => decide (o.pin < 32)
  | .sctlWrite o => decide (o.target < 128) && decide (o.sflags < 16) && decide (o.sflags % 4 ≠ 3) && decide (1 ≤ o.len) && decide (o.len ≤ 16) &&
      (decide (o.camera < 16) || o.camera == 255) && decide (o.group < 8)
  | .sctlRead o => decide (o.target < 128) && decide (o.sflags < 16) && decide (o.sflags % 4 ≠ 3) && decide (1 ≤ o.len) && decide (o.len ≤ 16)
  | .sctlCcc o => decide (o.target < 128) && decide (o.len ≤ 16)
  | .sldColl o => decide (1 ≤ o.elements) && decide (o.elements ≤ 2 ^ 28) && decide (o.op ≤ 4) && decide (o.scope ≤ 4) && decide (o.collId < 256) &&
      (if o.op ≤ 2 then o.fmt == 12 || o.fmt == 9 || o.fmt == 11 else isElement o.fmt)
  | .ethFlow o => decide (o.first < 256)
  | .ethSend o => decide (o.queue < 8)
  | .ethGcl o => decide (1 ≤ o.cycleNs) && decide (o.cycleNs ≤ 1000000000) && decide (1 ≤ o.entries) && decide (o.entries ≤ 256)
  | .invRecord o => decide (o.line < 131072)
  | .invIndicate o => decide (o.line < 131072) && decide (o.len ≤ 250)

/-- A command of a list: its header and operands. -/
def Command.wf (c : Command) : Bool := c.hdr.wf && c.body.wf

/-- A Solder packet as a port receives it: ports 0 to 7. -/
def Rx.wf (r : Rx) : Bool := decide (r.port < 8)

/-- A word of a register (R8, R264): an offset in the 256 KiB register page, aligned to four bytes. -/
def regOffset (off : Nat) : Bool := decide (off < 0x4_0000) && decide (off % 4 = 0)

/-- A command of the block whose operands lie in the ranges that the spec gives them. -/
def Instr.wf : Instr → Bool
  | .nop q h => q.wf && h.wf
  | .launchAt q h o => q.wf && h.wf && (Body.launchAt o).wf
  | .jump q h o => q.wf && h.wf && (Body.jump o).wf
  | .barrier q h o => q.wf && h.wf && (Body.barrier o).wf
  | .complete q h o => q.wf && h.wf && (Body.complete o).wf
  | .timeRead q h o => q.wf && h.wf && (Body.timeRead o).wf
  | .commandCompletion q => q.wf
  | .launchTick t => decide (t < 64)
  | .xfer q h o => q.wf && h.wf && (Body.xfer o).wf
  | .pgPolicy q h o => q.wf && h.wf && (Body.pgPolicy o).wf
  | .pgTouch q h o => q.wf && h.wf && (Body.pgTouch o).wf
  | .spFill q h o => q.wf && h.wf && (Body.spFill o).wf
  | .spCopy q h o => q.wf && h.wf && (Body.spCopy o).wf
  | .nWrite q h o => q.wf && h.wf && (Body.nWrite o).wf
  | .spCredit q h o => q.wf && h.wf && (Body.spCredit o).wf
  | .matmul q h o => q.wf && h.wf && (Body.matmul o).wf
  | .matmulS2 q h o => q.wf && h.wf && (Body.matmulS2 o).wf
  | .vadd q h o => q.wf && h.wf && (Body.vadd o).wf
  | .vsub q h o => q.wf && h.wf && (Body.vsub o).wf
  | .vmul q h o => q.wf && h.wf && (Body.vmul o).wf
  | .vfma q h o => q.wf && h.wf && (Body.vfma o).wf
  | .vmax q h o => q.wf && h.wf && (Body.vmax o).wf
  | .vmin q h o => q.wf && h.wf && (Body.vmin o).wf
  | .vunary q h o => q.wf && h.wf && (Body.vunary o).wf
  | .vcmp q h o => q.wf && h.wf && (Body.vcmp o).wf
  | .vsel q h o => q.wf && h.wf && (Body.vsel o).wf
  | .vexp2 q h o => q.wf && h.wf && (Body.vexp2 o).wf
  | .vlog2 q h o => q.wf && h.wf && (Body.vlog2 o).wf
  | .vrecip q h o => q.wf && h.wf && (Body.vrecip o).wf
  | .vrsqrt q h o => q.wf && h.wf && (Body.vrsqrt o).wf
  | .vact q h o => q.wf && h.wf && (Body.vact o).wf
  | .vreduce q h o => q.wf && h.wf && (Body.vreduce o).wf
  | .vepilogue q h o => q.wf && h.wf && (Body.vepilogue o).wf
  | .vqs2 q h o => q.wf && h.wf && (Body.vqs2 o).wf
  | .vquant q h o => q.wf && h.wf && (Body.vquant o).wf
  | .vdequant q h o => q.wf && h.wf && (Body.vdequant o).wf
  | .vrescale q h o => q.wf && h.wf && (Body.vrescale o).wf
  | .vpool q h o => q.wf && h.wf && (Body.vpool o).wf
  | .vargmax q h o => q.wf && h.wf && (Body.vargmax o).wf
  | .vpoolBwd q h o => q.wf && h.wf && (Body.vpoolBwd o).wf
  | .wconv q h o => q.wf && h.wf && (Body.wconv o).wf
  | .wconvDiag q h o => q.wf && h.wf && (Body.wconvDiag o).wf
  | .ewin q h o => q.wf && h.wf && (Body.ewin o).wf
  | .ppParam q h o => q.wf && h.wf && (Body.ppParam o).wf
  | .ppBand q h o => q.wf && h.wf && (Body.ppBand o).wf
  | .ppBParam q h o => q.wf && h.wf && (Body.ppBParam o).wf
  | .ppBRows q h o => q.wf && h.wf && (Body.ppBRows o).wf
  | .pub q h o => q.wf && h.wf && (Body.pub o).wf
  | .pubOpen q h o => q.wf && h.wf && (Body.pubOpen o).wf
  | .pinSet q h o => q.wf && h.wf && (Body.pinSet o).wf
  | .pinPulse q h o => q.wf && h.wf && (Body.pinPulse o).wf
  | .pgStart q h o => q.wf && h.wf && (Body.pgStart o).wf
  | .pgStop q h o => q.wf && h.wf && (Body.pgStop o).wf
  | .capArm q h o => q.wf && h.wf && (Body.capArm o).wf
  | .capDisarm q h o => q.wf && h.wf && (Body.capDisarm o).wf
  | .sctlWrite q h o => q.wf && h.wf && (Body.sctlWrite o).wf
  | .sctlRead q h o => q.wf && h.wf && (Body.sctlRead o).wf
  | .sctlCcc q h o => q.wf && h.wf && (Body.sctlCcc o).wf
  | .sldColl q h o => q.wf && h.wf && (Body.sldColl o).wf
  | .ethFlow q h o => q.wf && h.wf && (Body.ethFlow o).wf
  | .ethSend q h o => q.wf && h.wf && (Body.ethSend o).wf
  | .ethGcl q h o => q.wf && h.wf && (Body.ethGcl o).wf
  | .gclCycleStart n => decide (n < 4)
  | .invRecord q h o => q.wf && h.wf && (Body.invRecord o).wf
  | .invIndicate q h o => q.wf && h.wf && (Body.invIndicate o).wf
  | .chnSel _ => true
  | .chnSnapCopy => true
  | .loadStart _ => true
  | .loadChunk _ => true
  | .loadAbort _ => true
  | .drainComplete => true
  | .drainTimeout => true
  | .loadFinish => true
  | .dbRing _ => true
  | .kill _ => true
  | .killComplete => true
  | .rearm _ => true
  | .rearmComplete => true
  | .hostIrqClear _ => true
  | .memBwSplit _ => true
  | .memPtSel _ => true
  | .memFillDone _ => true
  | .spDebugRead c _ => decide (c < 6)
  | .spDebugReadDone c => decide (c < 6)
  | .setArm _ => true
  | .pinForce _ _ => true
  | .tokenSubmit _ => true
  | .tokenDone => true
  | .rollbackCommit _ => true
  | .attestStart _ => true
  | .attestDone => true
  | .attestRelease _ => true
  | .attestTimeout => true
  | .invReplay _ => true
  | .pwrCapWrite _ => true
  | .ilCommit => true
  | .ilCommitDone => true
  | .identity => true
  | .discoverStart => true
  | .discoverEnd => true
  | .ilDeriveDone => true
  | .regWrite off _ _ => decide (off < 2 ^ 24)
  | .regAddr off _ => decide (off < 2 ^ 24)
  | .regRead => true
  | .mgmtState => true
  | .registerWrite off _ => regOffset off
  | .hostReadBurst a u => decide (a < 2 ^ 33) && decide (a % 32 = 0) && decide (u < 256)
  | .hostWriteBurst a d m e => decide (a < 2 ^ 33) && decide (a % 32 = 0) && decide (d.length = 32) && decide (m < 2 ^ 32) && decide (e ≤ 2)
  | .mrWrite c mr v => decide (c < 4) && decide (mr < 256) && decide (v < 256)
  | .writeX c => decide (c < 4)
  | .refresh c => decide (c < 4)
  | .selfRefreshEntry c _ => decide (c < 4)
  | .selfRefreshExit c => decide (c < 4)
  | .hcReset => true
  | .resetAssert => true
  | .resetRelease st a _ _ => decide (st < 8) && decide (a < 4)
  | .pwrOkFall => true
  | .firmwareUp ps => ps.all (fun p => decide (p.1 < 8))
  | .mcRestartEnd => true
  | .calEnableChange _ => true
  | .brakeAssert => true
  | .brakeRelease => true
  | .ppsInEdge t => decide (t < 2 ^ 64)
  | .eventPinEdge p _ _ => decide (p < 32)
  | .windowClose p => decide (p < 32)
  | .recFlush p => decide (p < 4)
  | .pgEdge p => decide (p < 32)
  | .ppsOutSecond => true
  | .mclkSwitch n => decide (n < 16)
  | .pinCalibration p _ => decide (p < 32)
  | .syncPeriod => true
  | .sync m => m.rx.wf
  | .delayReq m => m.rx.wf
  | .delayResp m => m.rx.wf
  | .sourceLost _ => true
  | .ptpMessage p _ _ _ d => decide (p < 4) && decide (d < 256)
  | .frameStartPacket p => decide (p.cam < 16) && decide (p.vc < 16) && decide (p.header ≤ 2)
  | .longPacket p => decide (p.cam < 16) && decide (p.vc < 16) && decide (p.header ≤ 2)
  | .frameEndPacket p => decide (p.cam < 16) && decide (p.vc < 16) && decide (p.header ≤ 2)
  | .frameTimeout c e => decide (c < 16) && decide (e < 4)
  | .memoryFedFrame p => decide (p < 4)
  | .ibi p a b => decide (p < 8) && decide (a < 128) && decide (b < 256)
  | .creditArrival c _ _ => decide (c < 65536)
  | .invarInput c => decide (c < 131072)
  | .checkpointDue => true
  | .checkpointSigned => true
  | .ack _ => true
  | .reqIdent _ => true
  | .reqLast _ => true
  | .uartRetry => true
  | .data r => r.wf
  | .credit r => r.wf
  | .mcastData r _ => r.wf
  | .mcastCredit r => r.wf
  | .solderBarrier r => r.wf
  | .coll r => r.wf
  | .memReq r => r.wf
  | .memResp r => r.wf
  | .linkCtrl p _ n _ => decide (p < 8) && decide (n < 256)
  | .portRetrainDone p _ => decide (p < 8)
  | .laneDegrade p l => decide (p < 8) && decide (l < 5)
  | .laneRetrainDone p l _ _ => decide (p < 8) && decide (l < 5)
  | .flowFrameRx p t _ => decide (p < 4) && decide (t < 65536)
  | .stackReadReturn r => decide (r.stack < 8) && decide (r.link < 9) && decide (r.check < 2 ^ 32) && decide (r.bank < 16) && decide (r.row < 32768) &&
      (match r.data with | some bs => bs.length == 64 | none => true)
  | .linkRetrainDone st l _ => decide (st < 8) && decide (l < 9)
  | .stackScrub st b r f l => decide (st < 8) && decide (b < 128) && decide (r < 32768) && decide (f ≤ 2) && decide (l < 2 ^ 24)
  | .spRepair c l => decide (c < 6) && decide (l < 786432)
  | .faultResolved p _ => decide (p < 2 ^ 24)
  | .hostFillRequest => true
  | .fillTimeout => true
  | .retirement _ => true
  | .placementSwitch => true
  | .backgroundTest _ _ => true
  | .columnSwap c q => decide (c < 6) && decide (q < 4)
  | .calibration _ _ => true
  | .domainOnDone d => decide (d < 96)
  | .bankGroupZeroed c g => decide (c < 6) && decide (g < 4)
  | .powerSample p => decide (p.rails.length = 7)
  | .thermalStep _ => true
  | .opStepSettled => true
  | .matchUpdate _ => true
  | .droopFire _ => true
  | .droopClear => true
  | .thermalTrip _ _ => true
  | .tripCooling => true
  | .tripRestart => true
  | .managementControllerRestart => true
  | .jtagInstruction _ _ => true
  | .gateInterval p => decide (p < 4)
  | .announceInterval => true
  | .ref10mInReturn => true
  | .pulseEnd p => decide (p < 32)
  | .hcResetRelease => true
  | .dynamicAddressAssignment a => decide (a < 128)

end Sys2Proof
end

