-- ==== Sys2Proof/Machine/Parse.lean ====
section
/-! DEFINITION. Machine/Parse.lean: reading a Bystan stream: header, section table, section bodies, commands (R38-R48, R61).

A reader of a field takes what the bytes say; whether they may say it is Checks.lean's. -/

namespace Sys2Proof.Machine

open Sys2Proof

/-- Record `i` of an array of records of `n` bytes that starts at `o`. -/
def rec (bs : List Byte) (o n i : Nat) : List Byte := slice bs (o + n * i) n

/-- `k` records of `n` bytes from `o` on. -/
def recs (bs : List Byte) (o n k : Nat) : List (List Byte) := (List.range k).map (rec bs o n)

/-! ## Commands (R61) -/

/-- The header of a command. -/
def headerOf (c : List Byte) : Header :=
  let f := u8 c 1
  { wait := f.testBit 0, signal := f.testBit 1, timed := f.testBit 2, last := f.testBit 3, irq := f.testBit 4,
    waitCtr := u8 c 2 % 64, waitBank := (u8 c 2).testBit 6, signalCtr := u8 c 3 % 64,
    waitValue := u16 c 4, signalUnit := u16 c 6 % 2 ^ 14 }

/-- Reserved bits of the header are zero. -/
def headerClean (c : List Byte) : Bool :=
  decide (u8 c 1 < 32) && decide (u8 c 2 < 128) && decide (u8 c 3 < 64) && decide (u16 c 6 < 2 ^ 14)

/-- Operand bytes outside the ranges (offset, size) given are zero. -/
def unnamedZero (c : List Byte) (named : List (Nat × Nat)) : Bool :=
  (List.range 24).all (fun i => named.any (fun r => decide (r.1 ≤ 8 + i) && decide (8 + i < r.1 + r.2)) || c.getD (8 + i) 0 == 0)

/-- Operands of the array commands, the vector commands, WCONV and the others with many fields. -/
def matmulOf (c : List Byte) : MatmulOps :=
  { aLine := u24 c 0x08, bLine := u24 c 0x0B, accLine := u24 c 0x0E, scaleLine := u24 c 0x11, kM1 := u16 c 0x14, fmtA := u8 c 0x16,
    fmtB := u8 c 0x17, mM1 := u8 c 0x18, nM1 := u8 c 0x19, mode := u16 c 0x1A, aPitch := u16 c 0x1C, bPitch := u16 c 0x1E }

def vecOf (c : List Byte) : VecOps :=
  { aLine := u24 c 0x08, bLine := u24 c 0x0B, cLine := u24 c 0x0E, dLine := u24 c 0x11, rowsM1 := u16 c 0x14, colsM1 := u16 c 0x16,
    fmtIn := u8 c 0x18, fmtOut := u8 c 0x19, func := u8 c 0x1A, vflags := u8 c 0x1B, imm := u32 c 0x1C }

def wconvOf (c : List Byte) : WConvOps :=
  { wdescLine := u24 c 0x08, bLine := u24 c 0x0B, accLine := u24 c 0x0E, scaleLine := u24 c 0x11, p0 := u24 c 0x14, ky0 := u8 c 0x17,
    mM1 := u8 c 0x18, nM1 := u8 c 0x19, mode := u16 c 0x1A, kyCntM1 := u8 c 0x1C, fmtB := u8 c 0x1D, cBase := u16 c 0x1E }

def paramOf (c : List Byte) : ParamOps :=
  { addr := u64 c 8, camera := u8 c 0x10, group := u8 c 0x11, mode := u8 c 0x12, frame := u32 c 0x14, epoch := u16 c 0x18, setId := u32 c 0x1C }

/-- Whether a vector opcode names a command (R91). -/
def vecBody (op : Nat) (o : VecOps) : Option Body :=
  match op with
  | 0x50 => some (.vadd o) | 0x51 => some (.vsub o) | 0x52 => some (.vmul o) | 0x53 => some (.vfma o)
  | 0x54 => some (.vmax o) | 0x55 => some (.vmin o) | 0x56 => some (.vunary o) | 0x57 => some (.vcmp o)
  | 0x58 => some (.vsel o) | 0x5A => some (.vexp2 o) | 0x5B => some (.vlog2 o) | 0x5C => some (.vrecip o)
  | 0x5D => some (.vrsqrt o) | 0x5E => some (.vact o) | 0x5F => some (.vreduce o) | 0x60 => some (.vepilogue o)
  | 0x64 => some (.vqs2 o) | 0x65 => some (.vquant o) | 0x66 => some (.vdequant o) | 0x67 => some (.vrescale o)
  | 0x6C => some (.vpool o) | 0x6D => some (.vargmax o) | 0x6E => some (.vpoolBwd o)
  | _ => none

/-- The operands of an opcode with the bytes that its table names; none for a reserved opcode (R61).
The spec gives no bytes for the operands of INV_RECORD and INV_INDICATE; their places here are the model's (log 13). DESIGN CHOICE (log 13). -/
def opcodeOf (c : List Byte) : Option (Body × List (Nat × Nat)) :=
  match u8 c 0 with
  | 0x00 => some (.nop, [])
  | 0x01 => some (.launchAt ⟨u8 c 8, u8 c 9, u64 c 0x10⟩, [(8, 2), (0x10, 8)])
  | 0x02 => some (.jump ⟨u32 c 8, u32 c 0xC, u8 c 0x10⟩, [(8, 9)])
  | 0x03 => some (.barrier ⟨u8 c 8, u8 c 9, u8 c 0xA⟩, [(8, 3)])
  | 0x04 => some (.complete ⟨u8 c 8, u16 c 0xA, u8 c 0xC⟩, [(8, 1), (0xA, 3)])
  | 0x05 => some (.timeRead ⟨u64 c 8, u8 c 0x10⟩, [(8, 9)])
  | 0x10 => some (.xfer ⟨u64 c 8, u8 c 0x10, u8 c 0x11, u16 c 0x12⟩, [(8, 12)])
  | 0x11 => some (.pgPolicy ⟨u32 c 8, u32 c 0xC, u8 c 0x10, u16 c 0x12⟩, [(8, 9), (0x12, 2)])
  | 0x12 => some (.pgTouch ⟨u32 c 8, u32 c 0xC, u8 c 0x10, 0⟩, [(8, 9)])
  | 0x20 => some (.spFill ⟨u24 c 8, u32 c 0xC, u24 c 0x10, u16 c 0x14, u24 c 0x18⟩, [(8, 3), (0xC, 7), (0x14, 2), (0x18, 3)])
  | 0x21 => some (.spCopy ⟨u24 c 8, u24 c 0xB, u16 c 0xE, u24 c 0x10, u24 c 0x14, u24 c 0x17⟩, [(8, 11), (0x14, 6)])
  | 0x22 => some (.nWrite ⟨u24 c 8, u24 c 0xB, u16 c 0xE, u16 c 0x10, u16 c 0x12, u24 c 0x14, u24 c 0x17, u8 c 0x1A⟩, [(8, 19)])
  | 0x23 => some (.spCredit ⟨u16 c 8, u8 c 0xA⟩, [(8, 3)])
  | 0x30 => some (.matmul (matmulOf c), [(8, 24)])
  | 0x38 => some (.matmulS2 (matmulOf c), [(8, 24)])
  | 0x70 => some (.wconv (wconvOf c), [(8, 24)])
  | 0x71 => some (.wconvDiag (wconvOf c), [(8, 24)])
  | 0x78 => some (.ewin ⟨u64 c 8, u24 c 0x10, u24 c 0x13, u8 c 0x16, u8 c 0x17, u16 c 0x18, u16 c 0x1A, u8 c 0x1C, u8 c 0x1D⟩, [(8, 22)])
  | 0x80 => some (.ppParam (paramOf c), [(8, 11), (0x14, 6), (0x1C, 4)])
  | 0x84 => some (.ppBand ⟨u8 c 8, u8 c 9, u16 c 0xA, u8 c 0xC⟩, [(8, 5)])
  | 0x88 => some (.ppBParam (paramOf c), [(8, 11), (0x14, 6), (0x1C, 4)])
  | 0x89 => some (.ppBRows ⟨u64 c 8, u8 c 0x10, u8 c 0x11, u16 c 0x12, u16 c 0x14, u8 c 0x16, u8 c 0x17⟩, [(8, 16)])
  | 0x90 => some (.pub ⟨u32 c 8, u16 c 0xC, u16 c 0xE, u8 c 0x10⟩, [(8, 9)])
  | 0x91 => some (.pubOpen ⟨u32 c 8, u16 c 0xC, 0, 0⟩, [(8, 6)])
  | 0x98 => some (.pinSet ⟨u8 c 8, u8 c 9⟩, [(8, 2)])
  | 0x99 => some (.pinPulse ⟨u8 c 8, u32 c 0xC⟩, [(8, 1), (0xC, 4)])
  | 0x9A => some (.pgStart ⟨u8 c 8, u8 c 9, u32 c 0xC, u64 c 0x10, u16 c 0x18, u32 c 0x1C⟩, [(8, 2), (0xC, 14), (0x1C, 4)])
  | 0x9B => some (.pgStop ⟨u8 c 8⟩, [(8, 1)])
  | 0x9C => some (.capArm ⟨u8 c 8, u8 c 9, u32 c 0xC, u64 c 0x10, u64 c 0x18⟩, [(8, 2), (0xC, 20)])
  | 0x9D => some (.capDisarm ⟨u8 c 8⟩, [(8, 1)])
  | 0xA0 => some (.sctlWrite ⟨u8 c 8, u8 c 9, u16 c 0xA, u8 c 0xC, u8 c 0xD, u8 c 0xE, leAt c 0x10 16, 0⟩, [(8, 7), (0x10, 16)])
  | 0xA1 => some (.sctlRead ⟨u8 c 8, u8 c 9, u16 c 0xA, u8 c 0xC, 0, 0, 0, u64 c 0x10⟩, [(8, 5), (0x10, 8)])
  | 0xA2 => some (.sctlCcc ⟨u8 c 8, u8 c 0xA, u8 c 0xC, leAt c 0x10 16⟩, [(8, 1), (0xA, 1), (0xC, 1), (0x10, 16)])
  | 0xA8 => some (.sldColl ⟨u64 c 8, u64 c 0x10, u32 c 0x18, u8 c 0x1C, u8 c 0x1D, u8 c 0x1E, u8 c 0x1F⟩, [(8, 24)])
  | 0xAB => some (.ethFlow ⟨u64 c 8, u8 c 0x10, u16 c 0x12⟩, [(8, 9), (0x12, 2)])
  | 0xAC => some (.ethSend ⟨u16 c 8, u8 c 0xA⟩, [(8, 3)])
  | 0xAD => some (.ethGcl ⟨u64 c 8, u64 c 0x10, u32 c 0x18, u16 c 0x1C⟩, [(8, 22)])
  | 0xB0 => some (.invRecord ⟨u24 c 8, u16 c 0xC, u64 c 0x10⟩, [(8, 3), (0xC, 2), (0x10, 8)])
  | 0xB1 => some (.invIndicate ⟨u24 c 8, u8 c 0xC⟩, [(8, 3), (0xC, 1)])
  | op => (vecBody op (vecOf c)).map (fun b => (b, [(8, 24)]))

/-- A command read from its 32 bytes; none when its opcode is reserved or a reserved bit or byte is not zero (R62). -/
def commandOf (c : List Byte) : Option Command :=
  match opcodeOf c with
  | some (b, named) => if headerClean c && unnamedZero c named then some ⟨headerOf c, b⟩ else none
  | none => none

/-! ## The header and the section table (R38, R39) -/

/-- An entry of the section table. -/
structure SectionEntry where
  kind : Nat
  offset : Nat
  length : Nat
  digest : List Byte

/-- The table of SECTION_COUNT entries at `o`. -/
def tableOf (img : List Byte) (o count : Nat) : List SectionEntry :=
  (recs img o 64 count).map (fun e => ⟨u16 e 0, u32 e 8, u32 e 0xC, slice e 0x10 48⟩)

/-- The section table of an image. -/
def sectionsOf (img : List Byte) : List SectionEntry := tableOf img 0x80 (u16 img 0x0C)

/-- The entry of a type. -/
def sectionOf (t : List SectionEntry) (kind : Nat) : Option SectionEntry := t.find? (fun e => e.kind == kind)

/-- The body of a section; empty when it is absent. -/
def bodyOf (img : List Byte) (t : List SectionEntry) (kind : Nat) : List Byte :=
  match sectionOf t kind with
  | some e => slice img e.offset e.length
  | none => []

/-! ## Section bodies -/

/-- Unit records of TOPOLOGY. -/
def unitsOf (b : List Byte) : List UnitRec :=
  (recs b 8 16 (u16 b 0)).map (fun r => ⟨u32 r 0, u8 r 4, u8 r 5, u16 r 6⟩)

/-- Relay entries of TOPOLOGY (R294). -/
def relaysOf (b : List Byte) : List Relay :=
  (recs b (8 + 16 * u16 b 0) 16 (u16 b 2)).map (fun r => ⟨u16 r 0 % 4096, u16 r 2, u8 r 4, u8 r 5, u8 r 6 == 1⟩)

/-- Claim records of CLAIMS. -/
def claimsOf (b : List Byte) : List ClaimRec :=
  (recs b 8 8 (u32 b 0)).map (fun r => ⟨u32 r 0 / 2 ^ 24, u32 r 0 % 2 ^ 24, u16 r 4, u16 r 6⟩)

/-- RESOURCE of a claim. -/
def ClaimRec.resource (c : ClaimRec) : Nat := c.kind * 2 ^ 24 + c.index

/-- Reserved bits of an entry are zero. -/
def entryClean (e : List Byte) : Bool := u16 e 0x0E == 0 && decide (u32 e 0x1C < 2 ^ 25) && decide (u32 e 0x24 < 2 ^ 19)

/-- The raw entries of CHANNELS. -/
def rawEntries (b : List Byte) : List (List Byte) := recs b 64 64 (u32 b 0)

/-- Page runs of MEMORY. -/
def runsOf (b : List Byte) : List PageRun :=
  (recs b 64 16 (u32 b 8)).map (fun r =>
    let f := u16 r 0xC
    ⟨u32 r 0, u32 r 4, u32 r 8, f.testBit 0, f.testBit 1, f.testBit 2, f.testBit 3⟩)

/-- Window map entries of MEMORY. -/
def winMapOf (b : List Byte) : List WinMap :=
  (recs b (64 + 16 * u32 b 8) 8 (u32 b 0xC)).map (fun r => ⟨u32 r 0, u16 r 4, (u16 r 6).testBit 0, (u16 r 6).testBit 1⟩)

/-- Scratchpad partitions of MEMORY. -/
def partsOf (b : List Byte) : List Partition :=
  (recs b (64 + 16 * u32 b 8 + 8 * u32 b 0xC) 16 (u32 b 0x10)).map (fun r => ⟨u8 r 0, u8 r 1, u32 r 4, u32 r 8, u16 r 0xC⟩)

/-- A schedule set that starts at `o`. -/
def schedOf (b : List Byte) (o : Nat) : SchedSet :=
  let n := u16 b o
  { reqs := (recs b (o + 8) 8 n).map (fun r => (u16 r 0, u32 r 4))
    phases := (recs b (o + 8 + 8 * n) 16 (u8 b (o + 2))).map (fun r => ⟨u8 r 0, u8 r 1, u8 r 2, u8 r 3, u16 r 4⟩) }

/-- The schedule sets. -/
def schedsOf (b : List Byte) : List SchedSet := (List.range (u8 b 0)).map (fun i => schedOf b (u32 b (4 + 4 * i)))

/-- The queue that an endpoint names. -/
def queueOf (e : Nat) : Option QueueId := (unitOfField (field e 8 14)).map (fun u => ⟨u, e % 256⟩)

/-- A command that is never fetched stands for one that cannot be read; check 14 has refused it by then. -/
def commandOr (c : List Byte) : Command := (commandOf c).getD ⟨headerOf c, .nop⟩

/-- The raw lists of a program set that starts at `o`: QUEUE, PHASE and the commands' bytes. -/
def rawLists (b : List Byte) (o : Nat) : List (Nat × Nat × List (List Byte)) :=
  (recs b (o + 4) 16 (u32 b o)).map (fun r => (u32 r 0, u8 r 0xC, recs b (u32 r 4) 32 (u32 r 8)))

/-- The raw program sets. -/
def rawSets (b : List Byte) : List (List (Nat × Nat × List (List Byte))) :=
  (List.range (u32 b 0)).map (fun i => rawLists b (u32 b (4 + 4 * i)))

/-- A program set. -/
def listsOfSet (ls : List (Nat × Nat × List (List Byte))) : List ListRec :=
  ls.zipIdx.filterMap (fun x => (queueOf x.1.1).map (fun q => ⟨q, x.2, x.1.2.1, x.1.2.2.map commandOr⟩))

/-- Weight records. -/
def weightsOf (b : List Byte) : List WeightRec :=
  (recs b 64 96 (u32 b 0)).map (fun r => ⟨u32 r 0, u8 r 4, u8 r 5, u16 r 6, u64 r 8, u64 r 0x10, u64 r 0x18, slice r 0x20 48⟩)

/-- The bytes of a range as numbers. -/
def byteList (b : List Byte) (o n : Nat) : List Nat := (slice b o n).map (·.toNat)

/-- Placements. -/
def placementsOf (b : List Byte) : List Placement :=
  (recs b 64 64 (u8 b 0)).map (fun r =>
    let cores := byteList r 4 6
    { programSet := u8 r 0, scheduleSet := u8 r 1
      coreMap := cores.map (fun c => if c = 0xFF then 0xFF else c % 8)
      quadrants := cores.map (fun c => if c = 0xFF then 0 else c / 16)
      eeMap := byteList r 0x0A 2, ppMap := byteList r 0x0C 4, stackMap := byteList r 0x10 8, minLinks := byteList r 0x18 8,
      minLanes := byteList r 0x20 8 })

/-- A LEGAL segment (R48, chapter 15 *PARAMETERS*); `digest` is its DIGEST in the main table. -/
def legalOf (b digest : List Byte) : Legal :=
  let t := tableOf b 64 (u16 b 6)
  let ch := bodyOf b t 0x0004
  let p := bodyOf b t 0x000B
  let pr := bodyOf b t 0x0007
  let values := 16 * u16 p 2
  { instrument := u64 b 8, version := u32 b 0x10, digest := digest, claims := claimsOf (bodyOf b t 0x0003)
    entries := (rawEntries ch).map entryOf, lists := ((rawSets pr).map listsOfSet).getD 0 []
    baud := u32 p 4, recordPage := u16 p 8, recordPages := u16 p 0xA, ckptPage := u16 p 0xC, ckptSlots := u8 p 0xE
    values := slice p 0x40 values, blob := slice p (0x40 + values) (u32 p 0x10), blobLine := u32 p 0x14 }

/-- M, the signed message (R40). -/
def messageBytes (img : List Byte) : List Byte := img.take (0x80 + 64 * u16 img 0x0C)

/-- A stream whose checks have passed; a reload takes what it lacks from the running stream `old` (R52). -/
def streamOf (img : List Byte) (m : List Byte) (old : Option Stream) : Stream :=
  let t := sectionsOf img
  let reload := (u16 img 6).testBit 0
  let top := bodyOf img t 2
  let mem := bodyOf img t 5
  let own : Stream :=
    { id := u64 img 0x10, version := u32 img 0x18, reload := reload, deviceNumber := u16 img 0x0E, deviceCount := u16 img 0x20
      topologyKind := u8 img 0x22, dimX := u16 img 0x24, dimY := u16 img 0x26, dimZ := u16 img 0x28
      structureDigest := slice img 0x30 48, message := m, keySlot := u8 (bodyOf img t 1) 2
      units := unitsOf top, relays := relaysOf top, claims := claimsOf (bodyOf img t 3), entries := (rawEntries (bodyOf img t 4)).map entryOf
      tableBase := u64 mem 0, stacksRequired := u32 mem 0x14, runs := runsOf mem, winMap := winMapOf mem, partitions := partsOf mem
      schedules := schedsOf (bodyOf img t 6), programs := (rawSets (bodyOf img t 7)).map listsOfSet
      weights := weightsOf (bodyOf img t 8), placements := placementsOf (bodyOf img t 9)
      legal := match sectionOf t 0xA with
        | some e => some (legalOf (slice img e.offset e.length) e.digest)
        | none => none }
  match reload, old with
  | true, some o =>
    { o with id := own.id, version := own.version, reload := true, message := m, keySlot := own.keySlot
             programs := own.programs, weights := own.weights
             schedules := if (sectionOf t 6).isSome then own.schedules else o.schedules }
  | _, _ => own

end Sys2Proof.Machine
end

