-- ==== Sys2Proof/Machine/Default.lean ====
section
/-! DEFINITION. Machine/Default.lean: the ROM default stream: what it claims and maps, how it learns a camera's geometry, and what it publishes
(R56, R57, R264, R325). -/

namespace Sys2Proof.Machine

open Sys2Proof

/-! ## The stream (R56, R264) -/

/-- Bytes of ring memory for each of the twelve memory-fed cameras: 85 MiB of the 1 GiB mapped in MS0. DESIGN CHOICE (log 37). -/
def ringBytes : Nat := 85 * 2 ^ 20

/-- The channel of camera `c` to its pipeline: in-line for CAM0-CAM3, through a ring for CAMn+4, CAMn+8 and CAMn+12. The geometry is not known yet. DESIGN CHOICE (log 95). -/
def defaultEntry (c : Nat) : Entry :=
  { Entry.unused with
    kind := 0x01, creditDepth := 4, source := 0x01_0000 + 256 * c, dest := 0x02_0020 + 256 * (c % 4) + c / 4
    elemFormat := 0x20, layout := 2, depth := 1, tokenRows := 1, tokenBytes := 64 }

/-- The window map: window page w at aperture page 4,096 + w; the directory, frame slots and statistics slots are marked PUBLISH. DESIGN CHOICE (log 95). -/
def defaultMap : List WinMap := (List.range 8192).map (fun w => ⟨4096 + w, w, false, true⟩)

/-- A placement with every pipeline and the ring memory in stack `k`. -/
def defaultPlacement (k : Nat) : Placement :=
  { programSet := 0, scheduleSet := 0, coreMap := List.replicate 6 0xFF, quadrants := List.replicate 6 0, eeMap := List.replicate 2 0xFF
    ppMap := [0, 1, 2, 3], stackMap := k :: List.replicate 7 0xFF, minLinks := List.replicate 8 0, minLanes := List.replicate 8 0 }

/-- The default stream, with the identifier, version and digest of its image: cameras, pipelines, one stack, ETH0 and the time unit (PTP on ETH0); EVT0 and PG0
for the PPS; no requirement, one phase (R325); no list, no weight and no LEGAL segment. DESIGN CHOICE (log 95). -/
def defaultStream (own : Stream) : Stream :=
  { own with
    reload := false, deviceNumber := 0xFFFF, deviceCount := 1, topologyKind := 0, dimX := 1, dimY := 1, dimZ := 1
    units := (List.range 16).map (fun c => ⟨256 * (0x0100 + c), 0x30, 0xFF, 0⟩) ++
      (List.range 4).flatMap (fun n => [⟨256 * (0x0200 + n), 0x20, 0xFF, n⟩, ⟨256 * (0x0300 + n), 0x20, 0xFF, n⟩]) ++
      [⟨0x06_0000, 0x40, 0xFF, 0⟩, ⟨0x09_0000, 0x58, 0xFF, 0⟩, ⟨0x0C_0000, 0x60, 0xFF, 0⟩]
    relays := []
    claims := [⟨0x01, 0, 0, 1⟩, ⟨0x02, 0, 0, 0⟩] ++
      (((List.range 20).map (60 + ·)) ++ [82, 90, 94]).map (fun d => ⟨0x06, d, 0, 0⟩) ++ (List.range 8192).map (fun w => ⟨0x07, w, 0, 0⟩)
    entries := (List.range 16).map defaultEntry
    tableBase := 12 * ringBytes, stacksRequired := 1, runs := [⟨0, 2 ^ 18, 0, true, false, false, false⟩]
    winMap := defaultMap, partitions := [], schedules := [⟨[], [⟨0, 3, 0, 3, 0⟩]⟩], programs := [[]], weights := []
    placements := (List.range 8).map defaultPlacement, legal := none }

/-! ## The directory (R57, R264) -/

/-- The largest even size within `mw × mh` that keeps the aspect ratio of `w × h`. -/
def fitSize (w h mw mh : Nat) : Nat × Nat :=
  let s := if h * mw ≤ w * mh then (min w mw, h * min w mw / max 1 w) else (w * min h mh / max 1 h, min h mh)
  (s.1 / 2 * 2, s.2 / 2 * 2)

/-- The first 16 bytes of a directory entry. -/
def Learn.entry (l : Learn) : List Byte :=
  let s := l.size.getD (0, 0)
  let a := fitSize s.1 s.2 640 360
  let b := fitSize s.1 s.2 256 144
  leBytes 2 s.1 ++ leBytes 2 s.2 ++ leBytes 2 (b2n l.link + 2 * b2n l.size.isSome + 4 * b2n l.retrying) ++
  leBytes 2 (l.vc.getD 0 + 256 * l.dt.getD 0) ++ leBytes 2 a.1 ++ leBytes 2 a.2 ++ leBytes 2 b.1 ++ leBytes 2 b.2

/-- What the default stream knows of a camera set, and its directory entry with it. -/
def State.setLearn (s : State) (c : Nat) (l : Learn) : State :=
  (s.onCam c (fun k => { k with learn := l })).winWrite (256 * c) l.entry

/-! ## Parameter sets of the default stream (R56) -/

/-- The CFA map of a CAMn_DEFAULT_FE.CFA value: RGGB, GRBG, GBRG, BGGR. -/
def defaultCfa (cfa : Nat) : Nat :=
  let m : List Nat := [[0, 1, 2, 3], [1, 0, 3, 2], [2, 3, 0, 1], [3, 2, 1, 0]].getD cfa [0, 1, 2, 3]
  m.getD 0 0 + 2 ^ 4 * m.getD 1 0 + 2 ^ 16 * m.getD 2 0 + 2 ^ 20 * m.getD 3 0

/-- The front end's group 0 for a camera whose geometry is known: D-PHY, one exposure, no embedded data. DESIGN CHOICE (log 95). -/
def defaultPort (l : Learn) (c cfa bytes : Nat) : List Byte :=
  let stride := ceilDiv bytes 4096 * 4096
  leBytes 1 (l.vc.getD 0) ++ leBytes 1 (l.dt.getD 0) ++ [0, 1, 2, 0, 0xFF, 4] ++ List.replicate 20 0 ++ leBytes 4 1_000_000 ++ leBytes 8 (defaultCfa cfa) ++
  (if c < 4 then List.replicate 13 0
   else leBytes 8 ((c - 4) * ringBytes) ++ leBytes 4 stride ++ leBytes 1 (max 2 (min 16 (ringBytes / max 1 stride)))) ++ List.replicate 11 0

/-- The front end's sets: no linearisation, the register's black level, full scale at one. DESIGN CHOICE (log 95). -/
def State.defaultFront (s : State) (c : Nat) : List (Option PSet) :=
  let l := (s.cam c).learn
  let e := s.camEnt c
  let cfa := s.regField (rCam c 0x044) 0 2
  let black := (List.replicate 64 (leBytes 4 (s.regField (rCam c 0x044) 4 24))).flatten
  [some ⟨0, defaultPort l c cfa (lineBytes e.elemFormat e.width * e.height)⟩, none, some ⟨0, black⟩, none, none,
   some ⟨0, leBytes 4 0x3380_0000 ++ List.replicate 60 0⟩, some ⟨0, Sys2Proof.Config.defaultSets 0⟩, none]

/-- The back end's group 0: the classical path to NV12 in BT.709 full range and to RGB888, over the whole frame. DESIGN CHOICE (log 95). -/
def defaultBack (w h : Nat) : List Byte :=
  let a := fitSize w h 640 360
  let b := fitSize w h 256 144
  [0, 1] ++ leBytes 2 w ++ leBytes 2 h ++ [0, 0] ++
  ([0x30, 0, 2, 0] ++ leBytes 2 a.1 ++ leBytes 2 a.2 ++ List.replicate 8 0) ++
  ([0x34, 0, 0, 0] ++ leBytes 2 b.1 ++ leBytes 2 b.2 ++ List.replicate 8 0) ++ List.replicate 24 0

/-- The front end's sets of a camera as a frame start finds them: the default stream's, with CAMn_DEFAULT_FE as it stands. -/
def State.nudge (s : State) (c : Nat) : State :=
  if s.boot.isDefault && (s.cam c).learn.size.isSome then
    let sets := s.defaultFront c
    s.onCam c (fun k => { k with sets := sets })
  else s

/-! ## Learning (R56) -/

/-- The camera format of a RAW data type. -/
def formatOfType (dt : Nat) : Nat := ([0x20, 0x21, 0x22, 0x23, 0x24, 0x25, 0x26].find? (fun f => rawType f == dt)).getD 0x20

/-- Whether a camera's packets go to the learner: the default stream runs and its geometry is not known. -/
def State.learning (s : State) (c : Nat) : Bool := s.boot.isDefault && (s.cam c).learn.size.isNone

/-- The geometry is known: the channel's entry takes it and the port is configured. DESIGN CHOICE (log 95). -/
def State.learned (s : State) (c : Nat) (l : Learn) (w h : Nat) : State :=
  let l := { l with size := some (w, h), retrying := false, frame := none, first := none }
  let s := s.setLearn c l
  let fmt := formatOfType (l.dt.getD 0)
  let s := match s.camChan c with
    | some i => s.onChan i (fun x => { x with ent := { x.ent with
        elemFormat := fmt, width := w, height := h, tokenBytes := ceilDiv (lineBytes fmt w) 64 * 64 } })
    | none => s
  let front := s.defaultFront c
  s.onCam c (fun k => { k with
    sets := front, bsets := [some ⟨0, defaultBack w h⟩, none, none, some ⟨0, Sys2Proof.Config.defaultSets 1⟩] ++ List.replicate 4 none })

/-- A frame start of a camera that is being learned: the first one fixes the virtual channel; a frame without an end is no complete frame. -/
def State.learnStart (s : State) (c vc : Nat) : State :=
  let l := (s.cam c).learn
  if (l.vc.getD vc) ≠ vc then s.count (rCam c 0x030) 1
  else s.setLearn c { l with link := true, vc := some vc, frame := some (0, 0, true), first := if l.frame.isSome then none else l.first }

/-- A line: the first RAW data type on that virtual channel is taken; embedded data and other types are passed over. -/
def State.learnLine (s : State) (c vc dt : Nat) (bs : List Byte) : State :=
  let l := (s.cam c).learn
  match l.frame with
  | none => s
  | some (w, n, ok) =>
    if l.vc ≠ some vc || !isRawType dt || l.dt.getD dt ≠ dt then s
    else
      let px := 8 * bs.length / rawBits (formatOfType dt)
      s.setLearn c { l with dt := some dt, frame := some (if n = 0 then (px, 1, true) else (w, n + 1, ok && px == w)) }

/-- A frame end: the second frame of a pair fixes the geometry when both agree; otherwise the next pair is tried. -/
def State.learnEnd (s : State) (c vc : Nat) : State :=
  let l := (s.cam c).learn
  match l.frame with
  | none => s
  | some f =>
    if l.vc ≠ some vc then s
    else if f.2.1 = 0 then s.setLearn c { l with frame := none }
    else match l.first with
      | none => s.setLearn c { l with frame := none, first := some f }
      | some g =>
        if f = g && f.2.2 then s.learned c l f.1 f.2.1
        else s.setLearn c { l with frame := none, first := none, retrying := true }

/-! ## Publication (R57, R264) -/

/-- A value of the mosaic with the grey-world gain of its colour from the previous frame's statistics, before the demosaic (R56); the first frame keeps
its values. DESIGN CHOICE (log 95). -/
def greySite (stats : List Byte) (colour v : Nat) : Nat :=
  if stats.isEmpty then v else fmul v (Sys2Proof.Config.greyWorld (if colour = 0 then 0 else if colour = 3 then 2 else 1) stats)

/-- A frame that has left the front end under the default stream: its pictures and statistics fill slot (number mod 4) of the camera's region, and its header
is published with the camera's next number. DESIGN CHOICE (log 95). -/
def State.defaultFrame (s : State) (n c : Nat) (f : Frame) : State :=
  let l := (s.cam c).learn
  let k := s.feCfg n c f
  let e := s.camEnt c
  let ls := f.exps.map (·.lines)
  let st := k.statistics ls e.padValue
  let v (y x : Nat) : Nat := greySite l.stats (k.colour y x) (k.output (k.merged ls e.padValue y x)).code
  let b := (s.cam c).beCfg
  let im : Image := (demosaic v (fun y x => k.colour y x) k.height k.width).map (fun r => r.map b.colourTone)
  let nv12 := b.picture (b.scaled im 0) 0
  let rgb := b.picture (b.scaled im 1) 1
  let i := f.number % 4
  let at0 := (512 + 480 * c) * 4096
  let stat := at0 + (448 + 8 * i) * 4096
  let poisoned := f.exps.any (fun x => x.lines.any (·.poisoned))
  let flags := b2n f.flagged + 2 * b2n poisoned + 4 * b2n (f.short || f.exps.any (fun x => decide (0 < x.short)))
  let digest := crc32c (2 ^ 32 - 1) nv12 ^^^ (2 ^ 32 - 1)
  let seq := seqNext l.seq
  let s := s.count (rPp n 0x428) (st.2.2.1 + st.2.2.2)
  let s := (s.winWrite (at0 + 112 * i * 4096) (slice nv12 0 (85 * 4096))).winWrite (at0 + (112 * i + 85) * 4096) (slice rgb 0 (27 * 4096))
  let s := (s.winWrite stat (slice (f.statHead c st.2.2.1 ++ st.1) 0 4096)).winWrite (stat + 4096)
    (slice (f.statHead c st.2.2.2 ++ st.2.1) 0 24576)
  let s := s.winWrite (stat + 28672) (slice (f.record c e.width e.height (f.fs, f.fe, f.trig)) 0 4096)
  (s.setLearn c { l with stats := st.1 ++ st.2.1, seq := seq }).winWrite (256 * c + 0x40 + 32 * i)
    (pubHeader seq i ⟨f.number, f.epoch, digest, nv12.length, flags, f.fs⟩)

end Sys2Proof.Machine
end

