-- ==== Sys2Proof/Machine/Sha.lean ====
section
/-! DEFINITION. Machine/Sha.lean: SHA-384 (R11), over 64-bit words held as naturals below 2^64.

FIPS 180-4 fixes the algorithm; the spec names it and does not restate it (log 7). -/

namespace Sys2Proof.Machine

open Sys2Proof

/-- Round constants 0 to 15. -/
def shaK0 : List Nat :=
  [0x428A2F98D728AE22, 0x7137449123EF65CD, 0xB5C0FBCFEC4D3B2F, 0xE9B5DBA58189DBBC,
   0x3956C25BF348B538, 0x59F111F1B605D019, 0x923F82A4AF194F9B, 0xAB1C5ED5DA6D8118,
   0xD807AA98A3030242, 0x12835B0145706FBE, 0x243185BE4EE4B28C, 0x550C7DC3D5FFB4E2,
   0x72BE5D74F27B896F, 0x80DEB1FE3B1696B1, 0x9BDC06A725C71235, 0xC19BF174CF692694]

/-- Round constants 16 to 31. -/
def shaK1 : List Nat :=
  [0xE49B69C19EF14AD2, 0xEFBE4786384F25E3, 0x0FC19DC68B8CD5B5, 0x240CA1CC77AC9C65,
   0x2DE92C6F592B0275, 0x4A7484AA6EA6E483, 0x5CB0A9DCBD41FBD4, 0x76F988DA831153B5,
   0x983E5152EE66DFAB, 0xA831C66D2DB43210, 0xB00327C898FB213F, 0xBF597FC7BEEF0EE4,
   0xC6E00BF33DA88FC2, 0xD5A79147930AA725, 0x06CA6351E003826F, 0x142929670A0E6E70]

/-- Round constants 32 to 47. -/
def shaK2 : List Nat :=
  [0x27B70A8546D22FFC, 0x2E1B21385C26C926, 0x4D2C6DFC5AC42AED, 0x53380D139D95B3DF,
   0x650A73548BAF63DE, 0x766A0ABB3C77B2A8, 0x81C2C92E47EDAEE6, 0x92722C851482353B,
   0xA2BFE8A14CF10364, 0xA81A664BBC423001, 0xC24B8B70D0F89791, 0xC76C51A30654BE30,
   0xD192E819D6EF5218, 0xD69906245565A910, 0xF40E35855771202A, 0x106AA07032BBD1B8]

/-- Round constants 48 to 63. -/
def shaK3 : List Nat :=
  [0x19A4C116B8D2D0C8, 0x1E376C085141AB53, 0x2748774CDF8EEB99, 0x34B0BCB5E19B48A8,
   0x391C0CB3C5C95A63, 0x4ED8AA4AE3418ACB, 0x5B9CCA4F7763E373, 0x682E6FF3D6B2B8A3,
   0x748F82EE5DEFB2FC, 0x78A5636F43172F60, 0x84C87814A1F0AB72, 0x8CC702081A6439EC,
   0x90BEFFFA23631E28, 0xA4506CEBDE82BDE9, 0xBEF9A3F7B2C67915, 0xC67178F2E372532B]

/-- Round constants 64 to 79. -/
def shaK4 : List Nat :=
  [0xCA273ECEEA26619C, 0xD186B8C721C0C207, 0xEADA7DD6CDE0EB1E, 0xF57D4F7FEE6ED178,
   0x06F067AA72176FBA, 0x0A637DC5A2C898A6, 0x113F9804BEF90DAE, 0x1B710B35131C471B,
   0x28DB77F523047D84, 0x32CAAB7B40C72493, 0x3C9EBE0A15C9BEBC, 0x431D67C49C100D4C,
   0x4CC5D4BECB3E42B6, 0x597F299CFC657E2A, 0x5FCB6FAB3AD6FAEC, 0x6C44198C4A475817]

/-- The 80 round constants. -/
def shaK : List Nat := shaK0 ++ shaK1 ++ shaK2 ++ shaK3 ++ shaK4

/-- The initial hash value of SHA-384. -/
def shaInit : List Nat :=
  [0xCBBB9D5DC1059ED8, 0x629A292A367CD507, 0x9159015A3070DD17, 0x152FECD8F70E5939,
   0x67332667FFC00B31, 0x8EB44A8768581511, 0xDB0C2E0D64F98FA7, 0x47B5481DBEFA4FA4]

/-- Rotation of a 64-bit word to the right. -/
def ror (n x : Nat) : Nat := x >>> n + (x % 2 ^ n) <<< (64 - n)

/-- Addition modulo 2^64. -/
def add64 (a b : Nat) : Nat := (a + b) % 2 ^ 64

/-- The next word of the message schedule, from the last 16 words, oldest first. -/
def shaWord (w : List Nat) : Nat :=
  let a := w.getD 14 0
  let b := w.getD 1 0
  let s1 := ror 19 a ^^^ ror 61 a ^^^ a >>> 6
  let s0 := ror 1 b ^^^ ror 8 b ^^^ b >>> 7
  add64 (add64 s1 (w.getD 9 0)) (add64 s0 (w.getD 0 0))

/-- One round on the working words a to h. -/
def shaRound (v : List Nat) (k w : Nat) : List Nat :=
  match v with
  | [a, b, c, d, e, f, g, h] =>
    let t1 := add64 (add64 (add64 h (ror 14 e ^^^ ror 18 e ^^^ ror 41 e)) ((e &&& f) ^^^ ((2 ^ 64 - 1 - e) &&& g))) (add64 k w)
    let t2 := add64 (ror 28 a ^^^ ror 34 a ^^^ ror 39 a) ((a &&& b) ^^^ (a &&& c) ^^^ (b &&& c))
    [add64 t1 t2, a, b, c, add64 d t1, e, f, g]
  | v => v

/-- The rounds of a block: the constants that remain, the window of 16 schedule words and the working words. -/
def shaRounds : List Nat → List Nat → List Nat → List Nat
  | [], _, v => v
  | k :: ks, w, v => shaRounds ks (w.drop 1 ++ [shaWord w]) (shaRound v k (w.getD 0 0))

/-- A big-endian number from bytes. -/
def beNat (bs : List Byte) : Nat := bs.foldl (fun a b => a * 256 + b.toNat) 0

/-- A block of 128 bytes taken into the hash value. -/
def shaBlock (h : List Nat) (bs : List Byte) : List Nat :=
  let w := (List.range 16).map (fun i => beNat ((bs.drop (8 * i)).take 8))
  List.zipWith add64 h (shaRounds shaK w h)

/-- `n` blocks taken in turn. -/
def shaBlocks : Nat → List Nat → List Byte → List Nat
  | 0, h, _ => h
  | n + 1, h, bs => shaBlocks n (shaBlock h (bs.take 128)) (bs.drop 128)

/-- The padded message: 0x80, zeros, and the length in bits as 16 big-endian bytes. -/
def shaPad (bs : List Byte) : List Byte :=
  let n := bs.length
  let z := (128 - (n + 17) % 128) % 128
  bs ++ [0x80] ++ List.replicate z 0 ++ (leBytes 16 (8 * n)).reverse

/-- SHA-384: 48 bytes, in standard order. PRESUMED (log 7). -/
def sha384 (bs : List Byte) : List Byte :=
  let m := shaPad bs
  ((shaBlocks (m.length / 128) shaInit m).take 6).flatMap (fun w => (leBytes 8 w).reverse)

end Sys2Proof.Machine
end

