-- ==== Sys2Proof/Machine/Keys.lean ====
section
/-! DEFINITION. Machine/Keys.lean: key slots, signature blocks, the flash directory and firmware images (R349-R354). -/

namespace Sys2Proof.Machine

open Sys2Proof

/-! ## Key slots (R354) -/

/-- The active generation of a slot: its lowest enrolled one that is not revoked. -/
def Otp.active (o : Otp) (slot : Nat) : Option Generation :=
  (o.slots.toList.getD slot (Vector.replicate 4 Generation.empty)).toList.find? (fun g => g.state == 1)

/-! ## Signature blocks (R350) -/

/-- KEY_SLOT of a signature block. -/
def sigSlot (b : List Byte) : Nat := u8 b 2

/-- A signature block is well formed: format, lengths and reserved bytes. -/
def sigClean (b : List Byte) : Bool :=
  u16 b 0 == 1 && u8 b 3 == 0 && u16 b 4 == 384 && u16 b 6 == 16224 && zeroAt b 8 8

/-- The RSA signature of a block verifies over a message. -/
def rsaOk (g : Generation) (msg b : List Byte) : Bool := Sys2Proof.Config.verifies 0 g.modulus msg (slice b 0x10 384)

/-- The SLH-DSA signature of a block verifies over a message. -/
def slhOk (g : Generation) (msg b : List Byte) : Bool := Sys2Proof.Config.verifies 1 g.slh msg (slice b 0x190 16224)

/-- Bytes of a signature block. -/
def sigBytes : Nat := 16624

/-! ## Flash (R349) -/

/-- Bytes of the flash; an unwritten byte reads 0xFF. DESIGN CHOICE (log 11). -/
def State.flashBytes (s : State) (a n : Nat) : List Byte := lookAll (0xFF : Byte) s.flash a n

/-- Bytes written to the flash. -/
def State.flashWrite (s : State) (a : Nat) (bs : List Byte) : State := { s with flash := putAll (0xFF : Byte) s.flash a bs }

/-- The directory: (TYPE, OFFSET, LENGTH) of its entries; none when it is absent, which its magic or CRC decides. -/
def State.directory (s : State) : Option (List (Nat × Nat × Nat)) :=
  let h := s.flashBytes 0 16
  let n := u16 h 6
  let es := s.flashBytes 16 (16 * n)
  if u32 h 0 = 0x4456_4C46 ∧ u16 h 4 = 1 ∧ 1 ≤ n ∧ n ≤ 16 ∧
      (crc32c (2 ^ 32 - 1) (h.drop 12 ++ es) ^^^ (2 ^ 32 - 1)) = u32 h 8 then
    some ((recs es 0 16 n).map (fun e => (u16 e 0, u32 e 4, u32 e 8)))
  else none

/-- The region of a directory entry of a type: its offset and length. -/
def State.region (s : State) (kind : Nat) : Option (Nat × Nat) :=
  s.directory.bind (fun d => (d.find? (fun e => e.1 == kind)).map (fun e => e.2))

/-! ## Firmware images (R351) -/

/-- RELEASE and SEC_VERSION of a firmware image. -/
def fwRelease (img : List Byte) : Nat := u32 img 8
def fwVersion (img : List Byte) : Nat := u8 img 6

/-- Why an image is not valid: the codes of SEC_BOOT_STATUS.FAIL_A; 0 for a valid one (R351). -/
def Otp.imageFault (o : Otp) (img : List Byte) : Nat :=
  let h := slice img 0 256
  let n := u32 h 0xC
  let sig := slice img (256 + n) sigBytes
  let wellFormed := u32 h 0 == 0x5746_4C46 && u16 h 4 == 1 && decide (u8 h 6 ≤ 64) && u8 h 7 == 0 && zeroAt h 0x40 192 &&
    decide (4096 ≤ n) && decide (n ≤ 8 * 2 ^ 20) && decide (256 + n + sigBytes ≤ img.length) && sigClean sig && sigSlot sig == 0
  if !wellFormed then 2
  else if sha384 (slice img 256 n) ≠ slice h 0x10 48 then 3
  else match o.active 0 with
    | none => 4
    | some g =>
      let m := sha384 h
      if !rsaOk g m sig then 4
      else if !slhOk g m sig then 5
      else if fwVersion img < o.ladder then 6
      else 0

/-- The firmware image of a directory entry (types 1 and 2). -/
def State.flashImage (s : State) (kind : Nat) : Option (List Byte) := (s.region kind).map (fun r => s.flashBytes r.1 r.2)

/-- The fault of a flash image; 1 when it is absent. -/
def State.flashFault (s : State) (kind : Nat) : Nat :=
  match s.flashImage kind with
  | some img => s.otp.imageFault img
  | none => 1

/-- The firmware that the ROM starts (R351): the slot and image of the valid image with the higher RELEASE, image A when equal. -/
def State.chooseFirmware (s : State) : Option (Nat × List Byte) :=
  let ok (k : Nat) : Option (Nat × List Byte) := if s.flashFault k = 0 then (s.flashImage k).map (fun i => (k, i)) else none
  match ok 1, ok 2 with
  | some a, some b => if fwRelease a.2 < fwRelease b.2 then some b else some a
  | some a, none => some a
  | none, some b => some b
  | none, none => none

/-- The ROM starts firmware or enters recovery (R351, R352). `slow` says that the flash does not answer in 8D-8D-8D mode. -/
def State.romBoot (s : State) (slow : Bool) : State :=
  let fa := s.flashFault 1
  let fb := s.flashFault 2
  match s.chooseFirmware with
  | some (k, img) =>
    { s with boot := { s.boot with
        fwSlot := k, failA := fa, failB := fb, recovery := false, slow := slow, up := false, release := fwRelease img,
        version := fwVersion img, measure := sha384 img, image := img } }
  | none =>
    { s with boot := { s.boot with
        fwSlot := 0, failA := fa, failB := fb, recovery := true, slow := slow, up := false, release := 0, version := 0, measure := [], image := [] } }

/-- A recovery image checked and started from memory, or refused (R352). Answers the loader's ERROR code, 0 when it starts. -/
def State.recover (s : State) (img : List Byte) : Nat × State :=
  match s.otp.imageFault img with
  | 0 =>
    (0, { s with boot := { s.boot with
        fwSlot := 3, recovery := false, release := fwRelease img, version := fwVersion img, measure := sha384 img, image := img } })
  | 4 => (0x04, s)
  | 5 => (0x05, s)
  | _ => (0x06, s)

end Sys2Proof.Machine
end

