-- ==== Sys2Proof/Machine/Place.lean ====
section
/-! DEFINITION. Machine/Place.lean: placements: which are available, which meets the floor, and the endpoints and lists they place (R46, R126, R34). -/

namespace Sys2Proof.Machine

open Sys2Proof

/-- Tensor cores, Pewter engines, picture pipelines and stacks are logical; the physical index of one under a placement (0xFF: unused). -/
def Placement.index (p : Placement) (cls i : Nat) : Nat :=
  match cls with
  | 0x05 => p.coreMap.getD i 0xFF
  | 0x04 => p.eeMap.getD i 0xFF
  | 0x02 => p.ppMap.getD i 0xFF
  | 0x03 => p.ppMap.getD i 0xFF
  | 0x06 => p.stackMap.getD i 0xFF
  | _ => i

/-- Bits [21:8] of an endpoint placed; none when its unit is unused under the placement. -/
def Placement.field (p : Placement) (f : Nat) : Option Nat :=
  let i := p.index (f / 256) (f % 256)
  if [0x02, 0x03, 0x04, 0x05, 0x06].contains (f / 256) && i == 0xFF then none else some (f / 256 * 256 + i)

/-- An endpoint of this device placed; that of a unit that the placement leaves unused has INDEX 0xFF, which no unit has (R46); a window page or another
device stays as it is. DESIGN CHOICE (log 88). -/
def Placement.endpoint (p : Placement) (own e : Nat) : Nat :=
  if Machine.field e 22 10 = own ∧ Machine.field e 16 6 ≠ 0x07 then
    match p.field (Machine.field e 8 14) with
    | some f => own * 2 ^ 22 + f * 256 + e % 256
    | none => own * 2 ^ 22 + Machine.field e 16 6 * 2 ^ 16 + 0xFF00 + e % 256
  else e

/-- A unit placed. -/
def Placement.unit (p : Placement) (u : UnitId) : Option UnitId := (p.field (unitField u)).bind unitOfField

/-- A channel's entry with its endpoints placed (R42). -/
def Placement.entry (p : Placement) (own : Nat) (e : Entry) : Entry :=
  { e with source := p.endpoint own e.source, dest := if e.multicast then e.dest else p.endpoint own e.dest }

/-- A command with its SIGNAL_UNIT placed. -/
def Placement.command (p : Placement) (c : Command) : Command :=
  if c.hdr.signalUnit = 0 then c
  else { c with hdr := { c.hdr with signalUnit := (p.field c.hdr.signalUnit).getD c.hdr.signalUnit } }

/-- The lists of a program set with their queues placed; lists of units that are unused do not run. -/
def Placement.lists (p : Placement) (ls : List ListRec) : List ListRec :=
  ls.filterMap (fun l => (p.unit l.queue.unit).map (fun u => { l with queue := ⟨u, l.queue.port⟩, cmds := l.cmds.map p.command }))

/-! ## Availability (R46) -/

/-- Whether a unit is retired or absent from the variant: bits [21:8] of its endpoint. -/
def State.gone (s : State) (f : Nat) : Bool :=
  let i := f % 256
  s.otp.units.contains f || (match f / 256 with
    | 0x05 => decide (6 ≤ i) || s.otp.sequencers.contains i
    | 0x04 => decide (2 ≤ i)
    | 0x02 => decide (4 ≤ i) || s.otp.units.contains (0x0300 + i)
    | 0x03 => decide (4 ≤ i) || s.otp.units.contains (0x0200 + i)
    | 0x06 => decide (s.part.memStacks ≤ i) || (match s.memStacks.toList[i]? with | some k => k.retired | none => true)
    | 0x08 => decide (s.part.solderPorts ≤ i)
    | 0x09 => decide (s.part.ethPorts ≤ i)
    | _ => false)

/-- Working links of a stack: those in rotation, with the links that a power cap has parked (R275, R278). -/
def State.workingLinks (s : State) (n : Nat) : Nat :=
  match s.memStacks.toList[n]? with
  | some k => links (k.rotation ||| k.parked)
  | none => 0

/-- Working lanes of a Solder port: four of those not retired (R288). -/
def State.workingLanes (s : State) (n : Nat) : Nat :=
  min 4 ((List.range 5).filter (fun l => !(s.port n).retired.getLsbD l)).length

/-- No value but 0xFF stands twice in a list. -/
def distinctMap (xs : List Nat) : Bool :=
  let ys := xs.filter (· != 0xFF)
  ys.eraseDups.length == ys.length

/-- A core passes ring traffic on when it is retired and its sequencer works (R126). -/
def State.passes (s : State) (n : Nat) : Bool :=
  s.otp.units.contains (0x0500 + n) && !s.otp.sequencers.contains n

/-- Two cores are ring neighbours once pass-through cores are left out (R126). -/
def State.ringNeighbours (s : State) (a b : Nat) : Bool :=
  let up (x y : Nat) : Bool := (List.range ((y + 6 - x) % 6 - 1)).all (fun i => s.passes ((x + 1 + i) % 6))
  a != b && (up a b || up b a)

/-- The logical units that a program set and a schedule set name. -/
def namedUnits (st : Stream) (p : Placement) : List Nat :=
  let ls := st.programs.getD p.programSet []
  let sc := match st.schedules[p.scheduleSet]? with | some c => c.reqs.map (·.1) | none => []
  ((ls.map (fun l => unitField l.queue.unit)) ++ sc).eraseDups

/-- Whether a placement of a stream is available (R46, R126, R283). -/
def State.available (s : State) (st : Stream) (p : Placement) : Bool :=
  let ok (cls n : Nat) : Bool := n == 0xFF || !s.gone (cls * 256 + n)
  decide (p.programSet < st.programs.length) && decide (p.scheduleSet < st.schedules.length) &&
  p.coreMap.all (ok 0x05) && p.eeMap.all (ok 0x04) && p.ppMap.all (ok 0x02) && p.stackMap.all (ok 0x06) &&
  (p.coreMap.zip p.quadrants).all (fun x => x.1 == 0xFF || (look 0 s.otp.quadrants x.1 &&& x.2) == 0) &&
  (p.stackMap.zip p.minLinks).all (fun x => x.1 == 0xFF || decide (x.2 ≤ s.workingLinks x.1)) &&
  (p.minLanes.zipIdx).all (fun x => x.1 == 0 || (!s.gone (0x0800 + x.2) && decide (x.1 ≤ s.workingLanes x.2))) &&
  (namedUnits st p).all (fun f => (p.field f).isSome) &&
  (List.range st.stacksRequired).all (fun l => p.stackMap.getD l 0xFF != 0xFF) &&
  distinctMap p.coreMap && distinctMap p.eeMap && distinctMap p.ppMap && distinctMap p.stackMap &&
  st.entries.all (fun e => e.kind != 0x05 ||
    (let a := p.core (field e.source 8 8)
     let b := p.core (field e.dest 8 8)
     a == 0xFF || b == 0xFF || s.ringNeighbours a b))

/-- The floor requirements of a placement: units, placed, and rates. -/
def requirements (st : Stream) (p : Placement) : List (Nat × Nat) :=
  match st.schedules[p.scheduleSet]? with
  | some c => c.reqs.filterMap (fun r => (p.field r.1).map (fun f => (f, r.2)))
  | none => []

/-- MEM_BW_SPLIT: the shares written in bits [11:0], those in effect in bits [27:16] (R140). -/
def rBwSplit : Nat := blkMem + 0x400

/-- The shares written last are in effect (R140). DESIGN CHOICE (log 69). -/
def State.takeShares (s : State) : State := s.setRegField rBwSplit 16 12 (s.regField rBwSplit 0 12)

/-- The floor rate of a unit in 10^6 per second: of a stack its working links × (READ + WRITE) × 1,000 MB/s (R140), of a core the tested one in OTP, at least the 1.40 G steps/s
guaranteed on every part (R5, R90), of any other unit the tested one (R34). DESIGN CHOICE (log 69). DESIGN CHOICE (log 16). -/
def State.floorRate (s : State) (f : Nat) : Nat :=
  if f / 256 = 0x06 then s.workingLinks (f % 256) * (s.regField rBwSplit 16 4 + s.regField rBwSplit 20 4) * 1000
  else if f / 256 = 0x05 then max 1400 (Sys2Proof.Config.floorRate f)
  else Sys2Proof.Config.floorRate f

/-- Whether a placement meets the floor (R46, R34). -/
def State.meetsFloor (s : State) (st : Stream) (p : Placement) : Bool :=
  (requirements st p).all (fun r => decide (r.2 ≤ s.floorRate r.1))

/-- The placement used: the first that is available and meets the floor, else the first that is available (R46). DESIGN CHOICE (log 69). -/
def State.choose (s : State) (st : Stream) : Option Nat :=
  let ok (i : Nat) : Bool := match st.placements[i]? with | some p => s.available st p | none => false
  let floor (i : Nat) : Bool := match st.placements[i]? with | some p => s.meetsFloor st p | none => false
  let is := (List.range st.placements.length).filter ok
  match is.find? floor with
  | some i => some i
  | none => is.head?

/-! ## Check 16: the guarantee (R34, R35) -/

def rFloorMargin : Nat := 0x044

/-- MARGIN and UNIT of DEV_FLOOR_MARGIN: the least quotient of tested and required rate, in 1/256, rounded down (R34). DESIGN CHOICE (log 108). -/
def State.floorMargin (s : State) (st : Stream) (p : Placement) : Nat :=
  let q (r : Nat × Nat) : Nat := min 65535 (256 * s.floorRate r.1 / max 1 r.2)
  let rs := (requirements st p).filter (fun r => decide (0 < r.2))
  match rs with
  | [] => 0
  | r :: rest =>
    let b := rest.foldl (fun b x => if q x < q b then x else b) r
    q b + 65536 * b.1

/-- DEV_GUARANTEE and DEV_FLOOR_MARGIN set by check 16; where the floor is not met `reason` is CLEAR_REASON and HOST_IRQ_N is
asserted (R34, R35). DESIGN CHOICE (log 91). -/
def State.compareFloor (s : State) (reason : Nat) : State :=
  match s.stream, s.place with
  | some st, some p =>
    let empty := match st.schedules[p.scheduleSet]? with | some c => c.reqs.isEmpty | none => true
    let met := !empty && s.meetsFloor st p
    let why := if empty then 5 else if met then 0 else reason
    let s := ((s.setRegField rGuarantee 0 2 (1 + 2 * b2n met)).setRegField rGuarantee 4 4 why).setReg rFloorMargin (s.floorMargin st p)
    let s := (s.setRegField rGuarantee 2 1 (b2n (s.placement != 0))).setRegField rGuarantee 8 8 s.placement
    if !empty && !met then s.irq .guarantee else s
  | _, _ => s

end Sys2Proof.Machine
end

