-- ==== Sys2Proof/Machine/Checks.lean ====
section
/-! DEFINITION. Machine/Checks.lean: the loader's checks 1 to 15, in the order of R49, each with its code and detail. -/

namespace Sys2Proof.Machine

open Sys2Proof

/-- A failed check: its code in DEV_LOAD_STATUS.ERROR and its DEV_LOAD_DETAIL. -/
abbrev LoadFail := Nat × Nat

/-- The first failure of a list. -/
def firstFail : List (Option LoadFail) → Option LoadFail
  | [] => none
  | some f :: _ => some f
  | none :: rest => firstFail rest

/-- A failure where a condition does not hold. -/
def need (ok : Bool) (code detail : Nat) : Option LoadFail := if ok then none else some (code, detail)

/-- The first failing index of a list, with the failure it gives. -/
def firstBad {α : Type} (xs : List α) (bad : Nat → α → Option LoadFail) : Option LoadFail :=
  (xs.zipIdx).findSome? (fun x => bad x.2 x.1)

/-- Whether an image is a PROGRAM_RELOAD stream. -/
def isReload (img : List Byte) : Bool := (u16 img 6).testBit 0

/-! ## Check 1: the header (R38) -/

/-- BAD_HEADER, with the byte offset of the field, or of the first reserved byte that is not zero. DEDUCED (log 83). -/
def check1 (img : List Byte) : Option LoadFail :=
  firstFail [
    need (u32 img 0 == 0x5453_5942) 1 0,
    need (u16 img 4 == 1) 1 4,
    need (decide (128 ≤ img.length) && u32 img 8 == img.length && decide (img.length ≤ 2 ^ 26)) 1 8,
    need (u8 img 6 / 4 == 0) 1 6,
    firstBad (7 :: 0x23 :: ((List.range 6).map (0x2A + ·) ++ (List.range 32).map (0x60 + ·))) (fun _ o => need (u8 img o == 0) 1 o)]

/-! ## Check 2: the section table (R38, R39, R376) -/

/-- The bytes from `a` to `b` are zero. -/
def gapZero (img : List Byte) (a b : Nat) : Bool := ((img.drop a).take (b - a)).all (· == 0)

/-- Bodies in ascending order of offset. -/
def byOffset (t : List SectionEntry) : List SectionEntry := t.mergeSort (fun a b => decide (a.offset ≤ b.offset))

/-- The gaps between the table, the bodies and the end. -/
def gapsZero (img : List Byte) (t : List SectionEntry) (from0 : Nat) : Bool :=
  let r := (byOffset t).foldl (fun (x : Nat × Bool) e => (e.offset + e.length, x.2 && gapZero img x.1 e.offset)) (from0, true)
  r.2 && gapZero img r.1 img.length

/-- A body inside the image, after the table, at a multiple of 64, and clear of the others. -/
def placedOk (img : List Byte) (t : List SectionEntry) (from0 : Nat) (i : Nat) (e : SectionEntry) : Bool :=
  decide (e.offset % 64 = 0) && decide (from0 ≤ e.offset) && decide (e.offset + e.length ≤ img.length) &&
  (t.zipIdx).all (fun x => x.2 == i || decide (x.1.offset + x.1.length ≤ e.offset) || decide (e.offset + e.length ≤ x.1.offset))

/-- Presence of a section type (R39). -/
def presence (reload legal : Bool) (kind : Nat) (here : Bool) : Bool :=
  if reload then match kind with | 1 => here | 6 => true | 7 => here | 8 => true | _ => !here
  else match kind with | 8 => true | 10 => here == legal | _ => here

/-- R376: the counts and offsets of a body within their ranges, and the body long enough. -/
def countsOk (kind : Nat) (b : List Byte) : Bool :=
  let n := b.length
  match kind with
  | 1 => decide (16624 ≤ n)
  | 2 => decide (8 ≤ n) && decide (u16 b 2 ≤ 1024) && decide (8 + 16 * u16 b 0 + 16 * u16 b 2 ≤ n)
  | 3 => decide (8 ≤ n) && decide (8 + 8 * u32 b 0 ≤ n)
  | 4 => decide (64 ≤ n) && decide (u32 b 0 ≤ 65536) && decide (64 + 64 * u32 b 0 ≤ n)
  | 5 => decide (64 ≤ n) && decide (u32 b 0xC ≤ 8192) && decide (u32 b 0x10 ≤ 384) && decide (1 ≤ u32 b 0x14) && decide (u32 b 0x14 ≤ 8) &&
      decide (64 + 16 * u32 b 8 + 8 * u32 b 0xC + 16 * u32 b 0x10 ≤ n)
  | 6 => decide (4 ≤ n) && decide (1 ≤ u8 b 0) && decide (u8 b 0 ≤ 16) && decide (4 + 4 * u8 b 0 ≤ n) &&
      (List.range (u8 b 0)).all (fun i =>
        let o := u32 b (4 + 4 * i)
        decide (o + 8 ≤ n) && decide (1 ≤ u8 b (o + 2)) && decide (u8 b (o + 2) ≤ 8) && decide (o + 8 + 8 * u16 b o + 16 * u8 b (o + 2) ≤ n))
  | 7 => decide (4 ≤ n) && decide (1 ≤ u32 b 0) && decide (u32 b 0 ≤ 16) && decide (4 + 4 * u32 b 0 ≤ n) &&
      (List.range (u32 b 0)).all (fun i =>
        let o := u32 b (4 + 4 * i)
        decide (o + 4 ≤ n) && decide (1 ≤ u32 b o) && decide (u32 b o ≤ 4096) && decide (o + 4 + 16 * u32 b o ≤ n) &&
        (recs b (o + 4) 16 (u32 b o)).all (fun r =>
          decide (u32 r 4 % 32 = 0) && decide (1 ≤ u32 r 8) && decide (u32 r 8 ≤ 1048576) && decide (u32 r 4 + 32 * u32 r 8 ≤ n)))
  | 8 => decide (64 ≤ n) && decide (u32 b 0 ≤ 65536) && decide (64 + 96 * u32 b 0 ≤ n)
  | 9 => decide (64 ≤ n) && decide (1 ≤ u8 b 0) && decide (u8 b 0 ≤ 16) && decide (64 + 64 * u8 b 0 ≤ n)
  | _ => true

/-- BAD_SECTION_TABLE. DEDUCED (log 83). -/
def check2 (img : List Byte) : Option LoadFail :=
  let n := u16 img 0x0C
  if n = 0 ∨ 10 < n ∨ img.length < 0x80 + 64 * n then some (2, 0)
  else
    let t := sectionsOf img
    let end0 := 0x80 + 64 * n
    let reload := isReload img
    let legal := (u16 img 6).testBit 1
    firstFail [
      firstBad t (fun i e =>
        need (decide (1 ≤ e.kind) && decide (e.kind ≤ 10) && zeroAt img (0x80 + 64 * i + 2) 6 &&
          ((t.take i).all (fun x => x.kind != e.kind)) && placedOk img t end0 i e) 2 e.kind),
      firstBad (List.range 10) (fun _ k => need (presence reload legal (k + 1) (sectionOf t (k + 1)).isSome) 2 (k + 1)),
      firstBad t (fun _ e => need (countsOk e.kind (slice img e.offset e.length)) 2 e.kind),
      need (gapsZero img t end0) 2 0]

/-! ## Checks 3 to 6 and 8: digests, signatures, keys (R40, R49, R52, R354) -/

/-- SECTION_DIGEST. -/
def check3 (img : List Byte) : Option LoadFail :=
  firstBad (sectionsOf img) (fun _ e =>
    need (if e.kind = 1 then e.digest.all (· == 0) else sha384 (slice img e.offset e.length) == e.digest) 3 e.kind)

/-- M of an image (R40). -/
def messageOf (img : List Byte) : List Byte := sha384 (messageBytes img)

/-- The signatures against the slot's active generation; without one, checks 4 and 5 pass the stream on (R49). DESIGN CHOICE (log 109). -/
def Otp.signFault (o : Otp) (sig m : List Byte) : Option LoadFail :=
  let slot := sigSlot sig
  if 1 < slot then none
  else match o.active slot with
    | none => none
    | some g => firstFail [need (sigClean sig && rsaOk g m sig) 4 slot, need (slhOk g m sig) 5 slot]

/-- KEY_OR_FIRMWARE; the detail of a MIN_FIRMWARE that is not met is the release that the stream asks for, DESIGN CHOICE (log 115). The ROM default stream, exempt from VENDOR_STREAMS_OFF (R354), does not come here. -/
def State.check6 (s : State) (o : Otp) (img : List Byte) : Option LoadFail :=
  let slot := sigSlot (bodyOf img (sectionsOf img) 1)
  let sameSlot := match isReload img, s.stream with
    | true, some st => st.keySlot == slot
    | true, none => false
    | false, _ => true
  firstFail [
    need (decide (slot ≤ 1) && !(slot == 0 && o.vendorOff) && (o.active slot).isSome && sameSlot) 6 slot,
    need (decide (u32 img 0x1C ≤ s.boot.release)) 6 (u32 img 0x1C)]

/-- STRUCTURE_DIGEST. -/
def State.check8 (s : State) (img : List Byte) : Option LoadFail :=
  let t := sectionsOf img
  let d := slice img 0x30 48
  if isReload img then need (match s.stream with | some st => st.structureDigest == d | none => false) 8 0
  else need (sha384 (bodyOf img t 2 ++ bodyOf img t 3 ++ bodyOf img t 4 ++ bodyOf img t 5 ++ bodyOf img t 9) == d) 8 0

/-! ## Check 7: the shape (R217, R289, R290) -/

/-- The shape table. -/
def Stream.shapeOk (st : Stream) (die2 : Bool) : Bool :=
  let r (x lo hi : Nat) : Bool := decide (lo ≤ x) && decide (x ≤ hi)
  st.deviceCount == st.dimX * st.dimY * st.dimZ &&
  (match st.topologyKind with
   | 0 => st.dimX == 1 && st.dimY == 1 && st.dimZ == 1
   | 1 => r st.dimX 2 1024 && st.dimY == 1 && st.dimZ == 1
   | 2 => r st.dimX 2 32 && r st.dimY 2 32 && st.dimZ == 1
   | 3 => r st.dimX 2 16 && r st.dimY 2 8 && r st.dimZ 2 8 && die2
   | _ => false) &&
  (if st.topologyKind = 0 then st.deviceNumber == 0xFFFF || st.deviceNumber == 0 else decide (st.deviceNumber < st.deviceCount))

/-- The device's own number in a stream. -/
def Stream.own (st : Stream) : Nat := if st.deviceNumber = 0xFFFF then 0 else st.deviceNumber

/-- The ports that a shape needs. -/
def Stream.portsUsed (st : Stream) : Nat := match st.topologyKind with | 0 => 0 | 1 => 2 | 2 => 4 | _ => 6

/-- The unit record of an endpoint's bits [21:8]. -/
def Stream.unitRec (st : Stream) (f : Nat) : Option UnitRec := st.units.find? (fun u => field u.unit 8 14 == f)

/-- The LINK record of a port names the neighbour, and a neighbour that has loaded runs the expected shape. -/
def State.linkOk (s : State) (st : Stream) (n : Nat) : Bool :=
  let want := portNeighbour st.dims st.own n
  (match st.unitRec (0x0800 + n) with | some u => u.param == want | none => false) &&
  (match (s.port n).shape with
   | some sh => sh == ⟨want, st.deviceCount, st.topologyKind, st.dims⟩
   | none => true)

/-- The time unit's PARAM (R217). -/
def State.timeOk (s : State) (st : Stream) : Bool :=
  match st.unitRec 0x0C00 with
  | none => true
  | some u =>
    let src := field u.param 4 4
    let port := field u.param 1 3
    decide (u.param < 256) && !u.param.testBit 0 && decide (src ≤ 3) && (src == 0 || port == 0) && !(src == 2 && st.deviceCount == 1) &&
    (src != 0 || (decide (port < s.part.ethPorts) && (st.unitRec (0x0900 + port)).isSome))

/-- SHAPE_MISMATCH, with the device number. -/
def State.check7 (s : State) (st : Stream) : Option LoadFail :=
  need (st.shapeOk (decide (s.part.solderPorts = 8)) &&
    (List.range st.portsUsed).all (fun n => s.linkOk st n) &&
    st.units.all (fun u => field u.unit 16 6 != 0x08 || decide (field u.unit 8 8 < st.portsUsed)) && s.timeOk st) 7 st.deviceNumber

/-! ## Check 10: LEGAL and claims (R42, R43, R48, R306, R309) -/

/-- A claim's index and MODE within their ranges. DEDUCED (log 84). -/
def ClaimRec.inRange (c : ClaimRec) : Bool :=
  let m0 := c.mode == 0
  match c.kind with
  | 0x01 => decide (c.index < 32) && decide (c.mode ≤ 3)
  | 0x02 => decide (c.index < 32) && m0
  | 0x03 => decide (c.index < 64) && m0
  | 0x04 => decide (c.index < 16) && decide (60 ≤ c.mode) && decide (c.mode ≤ 540)
  | 0x05 => decide (c.index < 8) && m0
  | 0x06 => decide (c.index < 96) && decide (c.mode ≤ 1)
  | 0x07 => decide (c.index < 8192) && m0
  | 0x08 => decide (c.index < 4096) && m0
  | 0x09 => decide (c.index < 1024) && m0
  | 0x0A => decide (c.index < 32) && m0
  | 0x0B => decide (c.index < 3) && m0
  | _ => false

/-- A forbidden or empty claim (R42). -/
def badResource (st : Stream) (legal : Bool) (c : ClaimRec) : Bool :=
  !c.inRange || (!legal && c.kind == 0x0B) || (!legal && c.kind == 0x06 && c.index == 93) || (legal && c.kind == 0x06 && c.index == 93) ||
  (c.kind == 0x06 && c.mode == 1 && !st.units.any (fun u => (namedDomains u.unit).contains c.index))

/-- The claims of LEGAL, then those of the main stream, in record order: a forbidden or empty claim, a resource named twice, a resource that LEGAL claims. DEDUCED (log 84). -/
def claimFault (st : Stream) (legal : List ClaimRec) : Option LoadFail :=
  let one (isLegal : Bool) (cs : List ClaimRec) : Option LoadFail :=
    firstBad cs (fun i c => firstFail [
      need (!badResource st isLegal c) 0x0C c.resource,
      need ((cs.take i).all (fun x => x.resource != c.resource)) 0x0B c.resource,
      need (isLegal || !legal.any (fun x => x.resource == c.resource)) 0x0B c.resource])
  firstFail [one true legal, one false st.claims]

/-- Whether a CLAIM_CONFLICT is against a LEGAL claim (DEV_LOAD_STATUS.INVAR_CONFLICT): a main claim names a resource that LEGAL claims. A resource
that LEGAL itself names twice fails before any main claim is met. -/
def invarConflict (st : Stream) (f : LoadFail) : Bool :=
  f.1 == 0x0B &&
  (match st.legal with
   | some l => (l.claims.filter (fun x => x.resource == f.2)).length == 1 && st.claims.any (fun x => x.resource == f.2)
   | none => false)

/-- The LEGAL body's header, sub-section table and counts are well formed. -/
def legalFormed (b : List Byte) : Bool :=
  let n := u16 b 6
  let t := tableOf b 64 n
  let end0 := 64 + 64 * n
  decide (64 ≤ b.length) && u32 b 0 == 0x5256_4E49 && u16 b 4 == 1 && decide (2 ≤ n) && decide (n ≤ 5) && decide (end0 ≤ b.length) && zeroAt b 0x14 44 &&
  (t.zipIdx).all (fun x =>
    [1, 3, 4, 7, 0xB].contains x.1.kind && zeroAt b (64 + 64 * x.2 + 2) 6 && (t.take x.2).all (fun y => y.kind != x.1.kind) && placedOk b t end0 x.2 x.1 &&
    (if x.1.kind = 1 then x.1.digest.all (· == 0) else sha384 (slice b x.1.offset x.1.length) == x.1.digest) &&
    countsOk x.1.kind (slice b x.1.offset x.1.length)) &&
  (sectionOf t 1).isSome && (sectionOf t 7).isSome && u32 (bodyOf b t 7) 0 == 1

/-- A PARAMETERS sub-section within R309. -/
def paramsOk (st : Stream) (legal : List ClaimRec) (p : List Byte) : Bool :=
  let n := u16 p 2
  let blob := u32 p 0x10
  let publish (w : Nat) : Bool := legal.any (fun c => c.kind == 0x07 && c.index == w) && st.winMap.any (fun m => m.window == w && m.publish)
  decide (64 ≤ p.length) && u16 p 0 == 1 && decide (n ≤ 256) && decide (9600 ≤ u32 p 4) && decide (u32 p 4 ≤ 921600) &&
  decide (1 ≤ u16 p 0xA) && decide (u16 p 0xA ≤ 1024) && decide (2 ≤ u8 p 0xE) && decide (u8 p 0xE ≤ 8) && u8 p 0xF == 0 && zeroAt p 0x18 40 &&
  decide (blob ≤ 4194304) && decide (0x40 + 16 * n + blob ≤ p.length) &&
  (List.range n).all (fun i => zeroAt p (0x40 + 16 * i + 5) 3) &&
  (List.range (u16 p 0xA)).all (fun i => publish (u16 p 8 + i)) && (List.range (9 * u8 p 0xE)).all (fun i => publish (u16 p 0xC + i)) &&
  (blob == 0 || (decide (ceilDiv (16 * n) 64 ≤ u32 p 0x14) && decide (64 * u32 p 0x14 + blob ≤ 8388608)))

/-- LEGAL_SIGNATURE: a segment that does not verify against slot 2, or no segment may load (R48, R306). -/
def State.legalFault (s : State) (o : Otp) (st : Stream) (b : List Byte) : Option LoadFail :=
  let t := tableOf b 64 (u16 b 6)
  let sig := bodyOf b t 1
  let m := sha384 (b.take (64 + 64 * u16 b 6))
  if s.otp.invarOff then some (0x0A, 0xFFFF_FFFF)
  else if !legalFormed b then some (0x0A, 0)
  else firstFail [
    need (sigClean sig && sigSlot sig == 2 && (match o.active 2 with | some g => rsaOk g m sig && slhOk g m sig | none => false)) 0x0A 0,
    need ((sectionOf t 0xB).isNone || paramsOk st (claimsOf (bodyOf b t 3)) (bodyOf b t 0xB)) 2 0x0B]

/-- Check 10. A reload carries neither section. -/
def State.check10 (s : State) (o : Otp) (img : List Byte) (st : Stream) : Option LoadFail :=
  if isReload img then none
  else
    let t := sectionsOf img
    match sectionOf t 0xA, st.legal with
    | some e, some l => firstFail [s.legalFault o st (slice img e.offset e.length), claimFault st l.claims]
    | _, _ => claimFault st []

/-! ## Check 11: unit records and channels (R21, R26, R41, R44, R186, R198, R202, R232, R294, R307) -/

/-- The highest bus rate of a sensor-control role in kHz (R189): I3C up to 12.5 MHz, I2C up to 1 MHz. -/
def busLimit (role : Nat) : Nat := if role = 0x38 then 12500 else 1000

/-- Whether a unit record's ROLE is one of its class, its INDEX in range and its PARAM in the range of the role (R41). -/
def unitRecOk (own : Nat) (u : UnitRec) : Bool :=
  let c := field u.unit 16 6
  let i := field u.unit 8 8
  let roles : List Nat := match c with
    | 0x05 => [1, 2, 3] | 0x04 => [0x10, 0x11, 0x12] | 0x02 => [0x20] | 0x03 => [0x20] | 0x01 => [0x30] | 0x0B => [0x38, 0x39] | 0x06 => [0x40]
    | 0x08 => [0x50] | 0x09 => [0x58, 0x59] | 0x0C => [0x60] | _ => []
  let count : Nat := match c with
    | 0x05 => 6 | 0x04 => 2 | 0x02 => 4 | 0x03 => 4 | 0x01 => 16 | 0x0B => 8 | 0x06 => 8 | 0x08 => 8 | 0x09 => 4 | 0x0C => 1 | _ => 0
  let param : Bool := match c with
    | 0x05 => decide (u.param ≤ 5) | 0x02 => decide (u.param < 16) || u.param == 0xFFFF | 0x03 => decide (u.param < 16) || u.param == 0xFFFF
    | 0x01 => decide (u.param ≤ 1) | 0x0B => decide (0 < u.param) && decide (u.param ≤ busLimit u.role) | 0x08 => true | 0x0C => true | _ => u.param == 0
  field u.unit 22 10 == own && u.unit % 256 == 0 && roles.contains u.role && decide (i < count) && param

/-- Unit records in order: 0x4000_0000 plus the index of the first bad one. -/
def unitFault (st : Stream) (body : List Byte) : Option LoadFail :=
  firstBad st.units (fun i u =>
    need (unitRecOk st.own u && zeroAt (rec body 8 16 i) 8 8 && (st.units.take i).all (fun x => x.unit != u.unit)) 0x0D (2 ^ 30 + i))

/-- Relay entries: 0x8000_0000 plus the index of the first bad one (R294). -/
def relayFault (st : Stream) (body : List Byte) : Option LoadFail :=
  let port (n : Nat) : Bool := decide (n < st.portsUsed)
  firstBad st.relays (fun i r =>
    let raw := rec body (8 + 16 * st.units.length) 16 i
    need (decide (u16 raw 0 < 4096) && decide (1 ≤ r.count) && decide (r.first + r.count ≤ 4096) && (r.inPort == 0xFF || port r.inPort) &&
      (List.range 8).all (fun n => !r.outPorts.testBit n || port n) && decide (u8 raw 6 ≤ 1) && zeroAt raw 7 9 &&
      st.claims.any (fun c => c.kind == 0x09 && c.index == i) &&
      (st.relays.take i).all (fun x => x.inPort != r.inPort || decide (x.first + x.count ≤ r.first) || decide (r.first + r.count ≤ x.first)))
      0x0D (2 ^ 31 + i))

/-- Whether TOPOLOGY names an endpoint's unit; a picture pipeline's record names both its ends. -/
def Stream.names (st : Stream) (f : Nat) : Bool :=
  (st.unitRec f).isSome || (f / 256 == 0x03 && (st.unitRec (0x0200 + f % 256)).isSome) || (f / 256 == 0x02 && (st.unitRec (0x0300 + f % 256)).isSome)

/-- The claims of the LEGAL segment. -/
def Stream.legalClaims (st : Stream) : List ClaimRec := match st.legal with | some l => l.claims | none => []

/-- The channels of the LEGAL segment. -/
def Stream.legalEntries (st : Stream) : List Entry := match st.legal with | some l => l.entries | none => []

/-- The claims that the channels of a part of the stream may use: its own (R42); a LEGAL channel may end at a page of either. DESIGN CHOICE (log 116). -/
def Stream.claimsFor (st : Stream) (legal : Bool) : List ClaimRec := if legal then st.legalClaims ++ st.claims else st.claims

/-- An endpoint of a channel: a unit of TOPOLOGY, a claimed window page, Invar for a LEGAL channel, or another device over Solder. DESIGN CHOICE (log 116). -/
def Stream.endpointOk (st : Stream) (legal : Bool) (kind e : Nat) : Bool :=
  if field e 22 10 ≠ st.own then kind == 0x08 && decide (field e 22 10 < st.deviceCount)
  else match field e 16 6 with
    | 0x07 => decide (e % 65536 < 8192) && (st.claimsFor legal).any (fun c => c.kind == 0x07 && c.index == e % 65536)
    | 0x0A => legal
    | _ => st.names (field e 8 14)

/-- The fields that R44 fixes, read from the entry's bytes. -/
def fixedOk (raw : List Byte) (e : Entry) : Bool :=
  decide (1 ≤ e.kind) && decide (e.kind ≤ 0x0B) && e.state == 0 && e.frameNumber == 0 && e.epoch == 0 && !e.droppedSat && !e.flaggedSat && !e.poisonedSat &&
  e.dropped == 0 && e.flagged == 0 && e.poisoned == 0 && e.digest == 0 && e.lastTs == 0 && decide (1 ≤ e.creditDepth) && decide (0 < e.tokenBytes) &&
  decide (e.tokenBytes % 64 = 0) && (if e.shed then decide (1 ≤ e.shedDepth) else e.shedDepth == 0) && entryClean raw && !(e.elemFormat == 0x0D && e.height == 0)

/-- CFA periods that a row channel's LAYOUT and DEPTH allow (R186): P² channels under 0x01, a multiple of P² by the exposures under 0x03, any under 0x02. DEDUCED (log 86). -/
def rowPeriods (e : Entry) : List Nat :=
  match e.layout with
  | 1 => [1, 2, 4].filter (fun p => p * p == e.depth)
  | 3 => [1, 2, 4].filter (fun p => [1, 2, 3, 4].any (fun n => n * p * p == e.depth))
  | _ => [1, 2, 4]

/-- WIDTH and HEIGHT of the camera channels of the row channel's pipeline are multiples of a period that the row channel allows (R186). DEDUCED (log 86). -/
def Stream.periodOk (st : Stream) (e : Entry) : Bool :=
  (st.entries.filter (fun x => field x.source 16 6 == 0x01 && field x.dest 16 6 == 0x02 && field x.dest 8 8 == field e.source 8 8)).all (fun x =>
    (rowPeriods e).any (fun p => x.width % p == 0 && x.height % p == 0))

/-- The picture rules of an entry: the row channel (R186), the band channels of ports 0x40-0x9F (R196-R198), one channel at port 0 of a FIRST_LAYER engine (R202). -/
def Stream.pictureOk (st : Stream) (i : Nat) (e : Entry) : Bool :=
  let port := e.source % 256
  let front := field e.source 16 6 == 0x02
  let row := st.entries.find? (fun x => field x.source 16 6 == 0x02 && field x.source 8 8 == field e.source 8 8 && x.source % 256 == 0x30)
  let core := field e.dest 8 8
  let band : Bool := match row with
    | some r => r.width == e.width && r.depth == e.depth && r.elemFormat == e.elemFormat
    | none => false
  let intoBand : Bool := field e.dest 16 6 == 0x05 &&
    st.partitions.any (fun p => p.core == core && p.kind == 1 && (p.channel == i || p.channel == 0xFFFF)) &&
    (match st.unitRec (0x0500 + core) with | some u => u.role == 1 || u.role == 3 | none => false)
  (!(front && port == 0x30) || ((e.elemFormat == 3 || e.elemFormat == 10) && decide (1 ≤ e.layout) && decide (e.layout ≤ 3) &&
    st.periodOk e)) &&
  (!(front && decide (0x40 ≤ port) && decide (port < 0xA0)) || (band && !e.multicast && intoBand)) &&
  (!(field e.dest 16 6 == 0x04 && e.dest % 256 == 0 && !e.multicast &&
      (match st.unitRec (field e.dest 8 14) with | some u => u.role == 0x10 | none => false)) ||
    (st.entries.take i).all (fun x => x.multicast || x.dest != e.dest))

/-- The display output of a back end, output 0 on port 0x30 + 3s (R204): the one source that may carry the shed policy (R21). -/
def displayOutput (e : Nat) : Bool := field e 16 6 == 0x03 && decide (0x30 ≤ e % 256) && decide (e % 256 < 0x60) && e % 256 % 3 == 0

/-- A multicast channel's group is below 4,096 and claimed (R44, R294). -/
def Stream.groupOk (st : Stream) (legal : Bool) (e : Entry) : Bool :=
  decide (e.dest < 4096) && (st.claimsFor legal).any (fun c => c.kind == 0x08 && c.index == e.dest)

/-- A channel of the LEGAL segment: none of its sources is a display output, so none may shed (R21). -/
def Stream.legalOk (st : Stream) (raw : List Byte) (e : Entry) : Bool :=
  fixedOk raw e && !(e.kind == 0x0A && e.sensorRate) && !e.shed && st.endpointOk true e.kind e.source &&
  (if e.multicast then st.groupOk true e else st.endpointOk true e.kind e.dest)

/-- A channel of the main stream. -/
def Stream.mainOk (st : Stream) (i : Nat) (raw : List Byte) (e : Entry) : Bool :=
  let legalPort (x : Nat) : Bool := field x 16 6 == 0x0C && (x % 256 == 0x22 || x % 256 == 0x23)
  fixedOk raw e && st.endpointOk false e.kind e.source &&
  (if e.multicast then st.groupOk false e else st.endpointOk false e.kind e.dest) &&
  !(e.shed && (e.sensorRate || !displayOutput e.source)) && !legalPort e.source && !(legalPort e.dest && !e.multicast) && st.pictureOk i e

/-- The channel that a command names, for commands that move its tokens or return its credits. -/
def Body.channel : Body → Option Nat
  | .xfer o => some o.channel
  | .nWrite o => some o.channel
  | .spCredit o => some o.channel
  | .pub o => some o.channel
  | .ethSend o => some o.channel
  | _ => none

/-- Whether a channel's SOURCE sends without a command of a list that names the channel: a camera, a picture pipeline, the time unit, an Ethernet flow, Invar's
side, or another device; on this device in the phases of its unit's PHASE_MASK. DEDUCED (log 85). -/
def Stream.selfDriven (st : Stream) (phase : Nat) (e : Entry) : Bool :=
  if field e.source 22 10 ≠ st.own then true
  else if [0x04, 0x05, 0x06, 0x07].contains (field e.source 16 6) then false
  else match st.unitRec (field e.source 8 14) with | some u => u.phaseMask.testBit phase | none => true

/-- The unpinned channels that can be active at once in a phase (R26): those that the lists of the phase name, and those whose source sends of itself; the channels
of LEGAL stand after the main ones. DEDUCED (log 85). -/
def unpinnedIn (st : Stream) (ls : List ListRec) (phase : Nat) : List Nat :=
  let es := st.entries ++ st.legalEntries
  let legals := match st.legal with | some l => l.lists | none => []
  let named := (ls.filter (fun l => l.phase == phase) ++ legals).flatMap (fun l => l.cmds.filterMap (fun c => Body.channel c.body))
  (List.range es.length).filter (fun i => match es[i]? with
    | some e => !e.pinned && (named.contains i || st.selfDriven phase e)
    | none => false)

/-- PIN_LIMIT for more than 256 unpinned channels active at once in a phase: the 257th. DEDUCED (log 85). -/
def unpinnedFault (st : Stream) (p : Placement) : Option LoadFail :=
  firstBad (List.range (match st.schedules[p.scheduleSet]? with | some c => c.phases.length | none => 8)) (fun _ ph =>
    match (unpinnedIn st (st.programs.getD p.programSet []) ph)[256]? with
    | some i => some (0x0E, i)
    | none => none)

/-- BAD_CHANNEL and PIN_LIMIT in channel order, LEGAL channels after the main ones; together they fill at most the 65,536 entries of the table (R22). DEDUCED (log 83). DESIGN CHOICE (log 88). -/
def check11 (img : List Byte) (st : Stream) (p : Placement) : Option LoadFail :=
  if isReload img then unpinnedFault st p
  else
    let t := sectionsOf img
    let top := bodyOf img t 2
    let raws := rawEntries (bodyOf img t 4)
    let count := st.entries.length
    let legals := match st.legal, sectionOf t 0xA with
      | some l, some e =>
        let b := slice img e.offset e.length
        l.entries.zip (rawEntries (bodyOf b (tableOf b 64 (u16 b 6)) 4))
      | _, _ => []
    let pins (i : Nat) : Nat := (((st.entries ++ st.legalEntries).take i).filter (·.pinned)).length
    let pinFault (i : Nat) (e : Entry) : Option LoadFail := need (!(e.sensorRate && !e.pinned) && !(e.pinned && decide (768 ≤ pins i))) 0x0E i
    firstFail [
      unitFault st top,
      relayFault st top,
      firstBad st.entries (fun i e => firstFail [
        need (st.mainOk i (raws.getD i []) e) 0x0D i,
        pinFault i e]),
      firstBad legals (fun j x => firstFail [
        need (decide (count + j < 65536) && st.legalOk x.2 x.1) 0x0D (count + j),
        pinFault (count + j) x.1]),
      unpinnedFault st p]

/-! ## Check 12: memory (R45, R143, R251) -/

/-- Two runs share a page. -/
def runsMeet (a b : PageRun) : Bool := decide (a.virt < b.virt + b.count) && decide (b.virt < a.virt + a.count)

/-- The logical stack whose placement holds the page table and the loader region: MS0, or the lowest-numbered working stack. -/
def State.tableStack (s : State) : Nat := ((List.range 8).find? (fun n => !s.gone (0x0600 + n))).getD 0

/-- A page run within R45 and R143: a stack is 2^21 pages, the page table and loader region start at page 0x1F_4000 of their stack. DESIGN CHOICE (log 109). -/
def State.runOk (s : State) (st : Stream) (p : Placement) (i : Nat) (r : PageRun) : Bool :=
  let k := r.phys / 2 ^ 21
  !(r.large && !(r.virt % 512 == 0 && r.phys % 512 == 0 && r.count % 512 == 0)) && decide (1 ≤ r.count) && decide (r.virt + r.count ≤ 2 ^ 24) &&
  decide ((r.phys + r.count - 1) / 2 ^ 21 = k) && decide (k < st.stacksRequired) && (st.runs.take i).all (fun x => !runsMeet x r) &&
  !(p.stackMap.getD k 0xFF == s.tableStack && decide (0x1F4000 < r.phys % 2 ^ 21 + r.count))

/-- The first device page of the channel table, the entries of LEGAL after the main ones, that no writable, non-LAZY run covers; an unaligned base fails there too. DESIGN CHOICE (log 88). DESIGN CHOICE (log 109). -/
def tableGap (st : Stream) : Option Nat :=
  let bytes := 64 * (st.entries.length + st.legalEntries.length)
  let first := st.tableBase / 4096
  let last := (st.tableBase + bytes - 1) / 4096
  if bytes = 0 then none
  else if st.tableBase % 64 ≠ 0 then some first
  else ((List.range (last + 1 - first)).map (first + ·)).find? (fun d =>
    !st.runs.any (fun r => !r.readOnly && !r.isLazy && decide (r.phys ≤ d) && decide (d < r.phys + r.count)))

/-- A partition: in range, clear of the others of its core, inside the usable scratchpad, in claimed bank groups (R45, R113). DEDUCED (log 86). DESIGN CHOICE (log 109). -/
def partOk (claims : List ClaimRec) (ps : List Partition) (i : Nat) (p : Partition) : Bool :=
  decide (p.core ≤ 5) && decide (p.kind ≤ 6) && decide (p.base % 4096 = 0) && decide (p.size % 4096 = 0) && decide (p.base + p.size ≤ 50069504) &&
  (List.range 4).all (fun g => p.size == 0 || decide (p.base + p.size ≤ 12582912 * g) || decide (12582912 * (g + 1) ≤ p.base) ||
    claims.any (fun c => c.kind == 0x06 && c.index == 10 * p.core + 5 + g)) &&
  (ps.take i).all (fun x => x.core != p.core || decide (x.base + x.size ≤ p.base) || decide (p.base + p.size ≤ x.base))

/-- A window map entry (R45, R251). -/
def windowOk (st : Stream) (boot : List Nat) (i : Nat) (m : WinMap) : Bool :=
  let claimed (cs : List ClaimRec) : Bool := cs.any (fun c => c.kind == 0x07 && c.index == m.window)
  decide (m.aperture < 2097152) && !isRegPage m.aperture && !boot.contains m.aperture && decide (m.window < 8192) &&
  (claimed st.claims || (match st.legal with | some l => claimed l.claims | none => false)) &&
  (st.winMap.take i).all (fun x => x.aperture != m.aperture && x.window != m.window)

/-- MEMORY_OVERLAP and WINDOW_LIMIT. -/
def State.check12 (s : State) (img : List Byte) (st : Stream) (p : Placement) : Option LoadFail :=
  if isReload img then none
  else
    let boot := s.loader.map.bootPages
    firstFail [
      firstBad st.runs (fun i r => need (s.runOk st p i r) 0x0F r.virt),
      match tableGap st with | some d => some (0x0F, d) | none => none,
      firstBad st.partitions (fun i q => need (partOk st.claims st.partitions i q) 0x0F i),
      firstBad st.winMap (fun i m => need (windowOk st boot i m) 0x10 m.window)]

/-! ## Check 13: schedules (R377) -/

/-- BAD_SCHEDULE, with the set's index. DESIGN CHOICE (log 109). -/
def check13 (img : List Byte) (st : Stream) : Option LoadFail :=
  let b := bodyOf img (sectionsOf img) 6
  let hasFloor (f : Nat) : Bool := [0x05, 0x04, 0x02, 0x03, 0x06].contains (f / 256)
  if b.isEmpty then none
  else firstBad st.schedules (fun i c =>
    let o := u32 b (4 + 4 * i)
    let clean := zeroAt b (o + 3) 5 && (recs b (o + 8 + 8 * c.reqs.length) 16 c.phases.length).all (fun r => zeroAt r 6 10) &&
      (recs b (o + 8) 8 c.reqs.length).all (fun r => zeroAt r 2 2)
    need (clean && (List.range c.phases.length).all (fun n => (c.phases.filter (fun p => p.phase == n)).length == 1) &&
      c.phases.all (fun p => decide (p.opPreferred ≤ 7) && decide (p.opMin ≤ p.opPreferred) && decide (p.capPriority ≤ 3) && decide (p.maxUnpinned ≤ 256)) &&
      c.reqs.all (fun r => hasFloor r.1 && st.names r.1) && (c.reqs.map (·.1)).eraseDups.length == c.reqs.length) 0x11 i)

/-! ## Check 14: programs (R58, R62, R77, R113, R127, R134, R158, R236, R306 and the operand tables) -/

/-- Whether a queue accepts a command (R58, R134, R258 and the tables of the chapters; R306 for Invar). -/
def accepts (q : QueueId) (b : Body) : Bool :=
  let p := q.port
  let one : Bool := match q.unit with
    | .tc _ => true
    | _ => false
  let ee : Bool := match q.unit with
    | .ee _ => true
    | _ => false
  let inv : Bool := q.unit == .invar
  match b with
  | .nop => true | .launchAt _ => true | .jump _ => true | .barrier _ => true | .complete _ => true
  | .timeRead _ => (one && (p == 0 || p == 3)) || (inv && p == 3)
  | .xfer _ => (one && (p == 0 || p == 3 || p == 4)) || (ee && (p == 0 || p == 3)) || (inv && p == 0)
  | .pgPolicy _ => one && (p == 0 || p == 3)
  | .pgTouch _ => one && (p == 0 || p == 3)
  | .spFill _ => one && (p == 0 || p == 3 || p == 4)
  | .spCopy _ => one && (p == 0 || p == 3 || p == 4)
  | .nWrite _ => one && p == 4
  | .spCredit _ => one && (p == 0 || p == 3 || p == 4)
  | .matmul o => (one && p == 1) || (inv && p == 1 && decide (o.fmtA ≤ 2) && decide (o.fmtB ≤ 2) && decide (o.mM1 < 32) && decide (o.nM1 < 32))
  | .matmulS2 _ => one && p == 1
  | .vadd _ => (one || inv) && p == 2 | .vsub _ => (one || inv) && p == 2 | .vmul _ => (one || inv) && p == 2 | .vfma _ => (one || inv) && p == 2
  | .vmax _ => (one || inv) && p == 2 | .vmin _ => (one || inv) && p == 2 | .vunary _ => (one || inv) && p == 2 | .vcmp _ => (one || inv) && p == 2
  | .vsel _ => (one || inv) && p == 2 | .vexp2 _ => (one || inv) && p == 2 | .vlog2 _ => (one || inv) && p == 2 | .vrecip _ => (one || inv) && p == 2
  | .vrsqrt _ => (one || inv) && p == 2 | .vact _ => (one || inv) && p == 2 | .vreduce _ => (one || inv) && p == 2 | .vepilogue _ => (one || inv) && p == 2
  | .vqs2 _ => one && p == 2 | .vquant _ => one && p == 2 | .vdequant _ => one && p == 2 | .vrescale _ => one && p == 2
  | .vpool _ => one && p == 2 | .vargmax _ => one && p == 2 | .vpoolBwd _ => one && p == 2
  | .wconv _ => one && p == 1 | .wconvDiag _ => one && p == 1
  | .ewin _ => ee && p == 1
  | .ppParam _ => unitClass q.unit == 0x02 | .ppBand _ => unitClass q.unit == 0x02
  | .ppBParam _ => unitClass q.unit == 0x03 | .ppBRows _ => unitClass q.unit == 0x03
  | .pub _ => ((one || ee) && p == 3) || unitClass q.unit == 0x03
  | .pubOpen _ => ((one || ee) && p == 3) || unitClass q.unit == 0x03
  | .pinSet _ => q.unit == .time | .pinPulse _ => q.unit == .time | .pgStart _ => q.unit == .time | .pgStop _ => q.unit == .time
  | .capArm _ => q.unit == .time | .capDisarm _ => q.unit == .time
  | .sctlWrite _ => unitClass q.unit == 0x0B | .sctlRead _ => unitClass q.unit == 0x0B | .sctlCcc _ => unitClass q.unit == 0x0B
  | .sldColl _ => unitClass q.unit == 0x08
  | .ethFlow _ => unitClass q.unit == 0x09 | .ethSend _ => unitClass q.unit == 0x09 | .ethGcl _ => unitClass q.unit == 0x09
  | .invRecord _ => inv && p == 3 | .invIndicate _ => inv && p == 3

/-- What the checks of one command need: the stream, its channels with those of LEGAL, the claims that its lists may use, the list, its set, and its place in it. -/
structure ProgCtx where
  st : Stream
  chans : List Entry
  claims : List ClaimRec
  legal : Bool
  queue : QueueId
  phase : Nat
  cmds : List Command
  set : List ListRec
  index : Nat

/-- A resource claimed; `owner` asks for a unit's own claim. -/
def ProgCtx.claimed (x : ProgCtx) (kind index : Nat) : Bool := x.claims.any (fun c => c.kind == kind && c.index == index)

/-- A pin claimed with one of the modes. -/
def ProgCtx.pin (x : ProgCtx) (n : Nat) (modes : List Nat) : Bool := x.claims.any (fun c => c.kind == 0x01 && c.index == n && modes.contains c.mode)

/-- A window page claimed with PUBLISH set in the map. -/
def ProgCtx.publish (x : ProgCtx) (w : Nat) : Bool := x.claimed 0x07 w && x.st.winMap.any (fun m => m.window == w && m.publish)

/-- The partitions of the queue's core. -/
def ProgCtx.parts (x : ProgCtx) : List Partition := x.st.partitions.filter (fun p => decide (unitClass x.queue.unit = 5) && p.core == unitIndex x.queue.unit)

/-- A span of `n` lines from `line` on that lies inside partitions of the given kinds (R113). -/
def spanIn (ps : List Partition) (kinds : List Nat) (line n : Nat) : Bool :=
  n == 0 ||
  ((ps.filter (fun p => kinds.contains p.kind)).foldl (fun a p =>
    a + (min (line + n) ((p.base + p.size) / 64) - max line (p.base / 64))) 0 == n)

/-- Every kind of partition. -/
def anyKind : List Nat := [0, 1, 2, 3, 4, 5, 6]

/-- `rows` rows of `n` lines, `pitch` lines apart, inside the partitions. -/
def spansIn (ps : List Partition) (kinds : List Nat) (line n rows pitch : Nat) : Bool :=
  (List.range rows).all (fun r => spanIn ps kinds (line + r * pitch) n)

/-- A row of `cols` elements of `w` bits ends inside its partition: each row lies in one (R77). -/
def rowsIn (ps : List Partition) (line pitch w rows cols : Nat) : Bool :=
  let n := ceilDiv (cols * w) 512
  (List.range rows).all (fun r => ps.any (fun p => decide (p.base / 64 ≤ line + r * pitch) && decide (line + r * pitch + n ≤ (p.base + p.size) / 64)))

/-- The width of a format code. -/
def codeWidth (f : Nat) : Nat := match Fmt.ofCode f with | some x => x.width | none => 0

/-- A matrix operand in its view. -/
def ProgCtx.operand (x : ProgCtx) (col : Bool) (line pitch f outer k : Nat) : Bool :=
  if col then rowsIn x.parts line pitch (codeWidth f) k outer else rowsIn x.parts line pitch (codeWidth f) outer k

/-- Every line of a list lies in a partition of the core; Invar's sealed SRAM has no partitions (R113, R305). -/
def ProgCtx.inside (x : ProgCtx) (ls : List Nat) : Bool :=
  x.legal || ls.all (fun l => x.parts.any (fun p => decide (p.base / 64 ≤ l) && decide (l < (p.base + p.size) / 64)))

/-- The lines of a vector command's results in its view of D. -/
def dLines (o : VecOps) (w : Nat) : List Nat :=
  if vDCol o.vflags then rowLines o.dLine (vecPitch (o.rowsM1 + 1) w) w (o.colsM1 + 1) (o.rowsM1 + 1)
  else rowLines o.dLine (vecPitch (o.colsM1 + 1) w) w (o.rowsM1 + 1) (o.colsM1 + 1)

/-- The lines that a vector command with elementwise results reads and writes. -/
def ProgCtx.vecLines (x : ProgCtx) (o : VecOps) (b c : Bool) : Bool :=
  x.inside (aLines o (codeWidth o.fmtIn) ++ (if b then bLinesOf o else []) ++ (if c then cLinesOf o else []) ++ dLines o (codeWidth o.fmtOut))

/-- The lines of a command with one result for each vector, of `w` bits. -/
def ProgCtx.sumLines (x : ProgCtx) (o : VecOps) (w : Nat) : Bool :=
  x.inside (aLines o (codeWidth o.fmtIn) ++ linesOf o.dLine (w * vectorCount o))

/-- The lines of a command that a descriptor at IMM describes besides its own operands. DESIGN CHOICE (log 87). -/
def ProgCtx.descLines (x : ProgCtx) (o : VecOps) (more : List Nat) : Bool :=
  x.inside (o.imm % 2 ^ 24 :: (aLines o (codeWidth o.fmtIn) ++ more ++ dLines o (codeWidth o.fmtOut)))

/-- A MATMUL's lines: operand rows inside a partition, the whole tile in one accumulator partition (R75, R77), the scale descriptor where one is used (R113). -/
def ProgCtx.tileOk (x : ProgCtx) (acc m n scale : Nat) (scaled : Bool) : Bool :=
  x.parts.any (fun p => p.kind == 4 && decide (p.base / 64 ≤ acc) && decide (acc + 8 * (m - 1) + ceilDiv (32 * n) 512 ≤ (p.base + p.size) / 64)) &&
  (!scaled || x.inside [scale])

/-- A channel and whether this queue's unit is its SOURCE or DEST. -/
def ProgCtx.chan (x : ProgCtx) (i : Nat) : Option Entry := x.chans[i]?

/-- An endpoint of this device's unit. -/
def ProgCtx.mine (x : ProgCtx) (e : Nat) : Bool := field e 22 10 == x.st.own && field e 8 14 == unitField x.queue.unit

/-- XFER's channel (R135): inbound or outbound, as the queue allows; Invar's INPUT takes KIND 0x0A and the time unit's ports 0x22 and 0x23 (R306). -/
def ProgCtx.xferOk (x : ProgCtx) (o : XferOps) : Bool :=
  match x.chan o.channel with
  | none => false
  | some e =>
    let inb := !e.multicast && x.mine e.dest && [0x03, 0x05, 0x07].contains e.kind
    let outb := x.mine e.source && [0x04, 0x06, 0x08, 0x09, 0x0A, 0x0B].contains e.kind
    let isTc := unitClass x.queue.unit == 0x05
    if x.legal then !e.multicast && x.mine e.dest && (e.kind == 0x0A || (field e.source 16 6 == 0x0C && (e.source % 256 == 0x22 || e.source % 256 == 0x23)))
    else (match x.queue.port with | 0 => inb | 3 => outb | _ => inb || outb) &&
      (o.descKind == 1 || (isTc && decide (o.descAddr % 64 = 0) && spanIn x.parts anyKind (o.descAddr / 64) 2))

/-- The height of the shortest band of `rows` rows cut `b` rows at a time (R197). -/
def shortestBand (rows b : Nat) : Nat := if rows % max 1 b = 0 then min rows b else rows % b

/-- The rows that a row group carries do not exceed the shortest band that a PP_BAND of the set cuts (R201); the rows of the frame are those of the
pipeline's row channel. DEDUCED (log 86). -/
def ProgCtx.haloOk (x : ProgCtx) (rows : Nat) : Bool :=
  x.set.all (fun l => l.cmds.all (fun c => match c.body with
    | .ppBand o => (x.chans.filter (fun e => field e.source 8 14 == unitField l.queue.unit && e.source % 256 == 0x30)).all (fun e =>
        decide (rows ≤ shortestBand e.height o.bandRows))
    | _ => true))

/-- NWRITE (R127): one token, its source in this core's partitions, its lines in the inbox of the neighbour. -/
def ProgCtx.nWriteOk (x : ProgCtx) (o : NWriteOps) : Bool :=
  match x.chan o.channel with
  | none => false
  | some e =>
    let there := x.st.partitions.filter (fun p => p.core == field e.dest 8 8 && p.channel == o.channel)
    e.kind == 0x05 && x.haloOk e.tokenRows && x.mine e.source && e.source % 256 == 4 && (o.rowsM1 + 1) * o.lines * 64 == e.tokenBytes &&
    spansIn x.parts anyKind o.srcLine o.lines (o.rowsM1 + 1) o.srcPitch && spansIn there [2, 5] o.destLine o.lines (o.rowsM1 + 1) o.destPitch

/-- The lowest-numbered port that a scope uses (R297); none where the shape lacks it. -/
def scopePort (dims : List Nat) (scope : Nat) : Option Nat :=
  let ds := scopeDims dims scope
  if decide (scope ≤ 4) && !ds.isEmpty then ds.head?.map (2 * ·) else none

/-- The slot of a camera of this list's pipeline (R179, R197): 0 in-line, else 1 to 15, by the port 0x20 + s at which its channel ends; none for a camera of
another pipeline. -/
def ProgCtx.slot (x : ProgCtx) (camera : Nat) : Option Nat :=
  (x.chans.find? (fun e => field e.source 22 10 == x.st.own && field e.source 8 14 == 0x0100 + camera && !e.multicast)).bind (fun e =>
    if field e.dest 16 6 = 0x02 ∧ field e.dest 8 8 = unitIndex x.queue.unit ∧ 0x20 ≤ e.dest % 256 ∧ e.dest % 256 < 0x30 then some (e.dest % 256 - 0x20) else none)

/-- PP_BAND's channels (R198): ports 0x40 + 6s + r of this pipeline, r < C. -/
def ProgCtx.bandOk (x : ProgCtx) (o : BandOps) : Bool :=
  match x.slot o.camera with
  | some s => (List.range o.cores).all (fun r => x.chans.any (fun e => x.mine e.source && e.source % 256 == 0x40 + 6 * s + r))
  | none => false

/-- A command does not use a barrier with another SCOPE or ADVANCE (R62). DEDUCED (log 86). -/
def Body.sameBarrier (o : BarrierOps) : Body → Bool
  | .barrier p => p.id != o.id || (p.scope == o.scope && p.advance == o.advance)
  | _ => true

/-- What a command's own operands ask of the stream. DEDUCED (log 86); DESIGN CHOICE (log 87). -/
def ProgCtx.bodyOk (x : ProgCtx) (i : Nat) (b : Body) : Bool :=
  match b with
  | .launchAt o => x.claims.any (fun c => c.kind == 0x03 && c.index == o.timer && c.owner == unitField x.queue.unit)
  | .jump o => decide (o.target < x.cmds.length)
  | .barrier o => ((x.set.take x.index).filter (fun l => l.phase == x.phase)).all (fun l => l.cmds.all (Body.sameBarrier o ·.body)) &&
      (x.cmds.take i).all (Body.sameBarrier o ·.body)
  | .complete o => (List.range o.ringPages).all (fun k => x.publish (o.ringPage + k))
  | .timeRead o => o.kind != 0 || x.legal || spanIn x.parts anyKind (o.dest / 64) 1
  | .xfer o => x.xferOk o
  | .spFill o => spansIn x.parts anyKind o.destLine o.lines (o.rowsM1 + 1) o.destPitch
  | .spCopy o => spansIn x.parts anyKind o.srcLine o.lines (o.rowsM1 + 1) o.srcPitch && spansIn x.parts anyKind o.destLine o.lines (o.rowsM1 + 1) o.destPitch
  | .nWrite o => x.nWriteOk o
  | .spCredit o => (match x.chan o.channel with | some e => !e.multicast && x.mine e.dest && decide (o.count ≤ e.creditDepth) | none => false)
  | .matmul o => x.legal || (x.operand (o.mode.testBit 1) o.aLine o.aPitch o.fmtA (o.mM1 + 1) (o.kM1 + 1) &&
      x.operand (o.mode.testBit 2) o.bLine o.bPitch o.fmtB (o.nM1 + 1) (o.kM1 + 1) &&
      x.tileOk o.accLine (o.mM1 + 1) (o.nM1 + 1) o.scaleLine (field o.mode 5 3 != 0))
  | .matmulS2 o => x.operand (o.mode.testBit 1) o.aLine o.aPitch o.fmtA (o.mM1 + 1) (o.kM1 + 1) &&
      x.operand (o.mode.testBit 2) o.bLine o.bPitch o.fmtB (o.nM1 + 1) (o.kM1 + 1) && x.tileOk o.accLine (o.mM1 + 1) (o.nM1 + 1) o.scaleLine true
  | .vadd o => x.vecLines o true false | .vsub o => x.vecLines o true false | .vmul o => x.vecLines o true false | .vfma o => x.vecLines o true true
  | .vmax o => x.vecLines o true false | .vmin o => x.vecLines o true false | .vunary o => x.vecLines o false false | .vcmp o => x.vecLines o true false
  | .vsel o => x.vecLines o true true | .vexp2 o => x.vecLines o false false | .vlog2 o => x.vecLines o false false | .vrecip o => x.vecLines o false false
  | .vrsqrt o => x.vecLines o false false | .vact o => x.vecLines o (o.func == 1 || o.func == 2) (o.func == 2)
  | .vreduce o => x.sumLines o (codeWidth o.fmtOut) | .vqs2 o => x.sumLines o 32
  | .vargmax o => x.sumLines o (codeWidth o.fmtOut) && (!o.func.testBit 0 || x.inside (linesOf o.cLine (32 * vectorCount o)))
  | .vepilogue o => if o.func.testBit 7 then x.descLines o (epiLines o)
      else x.inside (aLines o (codeWidth o.fmtIn) ++ epiLines o ++ dLines o (codeWidth o.fmtOut))
  | .vquant o => x.descLines o [] | .vdequant o => x.descLines o []
  | .vrescale o => x.inside (aLines o 32 ++ bLinesOf o ++ cLinesOf o ++ dLines o (codeWidth o.fmtOut))
  | .vpool o => x.inside [o.imm % 2 ^ 24] | .vpoolBwd o => x.inside [o.imm % 2 ^ 24]
  | .wconv o => x.inside [o.wdescLine] && x.tileOk o.accLine (o.mM1 + 1) (o.nM1 + 1) o.scaleLine (o.mode.testBit 6 || o.mode.testBit 7 || o.mode.testBit 9)
  | .wconvDiag o => x.inside [o.wdescLine] && x.tileOk o.accLine (o.mM1 + 1) (o.nM1 + 1) o.scaleLine (o.mode.testBit 6 || o.mode.testBit 7 || o.mode.testBit 9)
  | .ppBand o => x.bandOk o
  | .ppParam o => (x.slot o.camera).isSome
  | .ppBParam o => (x.slot o.camera).isSome
  | .pub o => x.publish (o.hdr / 4096) && (match x.chan o.channel with | some e => e.kind == 0x06 && x.mine e.source | none => false)
  | .pubOpen o => x.publish (o.hdr / 4096)
  | .pinSet o => x.pin o.pin [2, 3]
  | .pinPulse o => x.pin o.pin [2, 3]
  | .pgStart o => x.pin o.pin [1, 2, 3] && x.claimed 0x02 o.pg
  | .pgStop o => x.claimed 0x02 o.pg
  | .capArm o => x.pin o.pin [0]
  | .capDisarm o => x.pin o.pin [0]
  | .sctlWrite _ => x.claimed 0x05 (unitIndex x.queue.unit)
  | .sctlRead _ => x.claimed 0x05 (unitIndex x.queue.unit)
  | .sctlCcc _ => x.claimed 0x05 (unitIndex x.queue.unit)
  | .sldColl o => scopePort x.st.dims o.scope == some (unitIndex x.queue.unit)
  | .ethSend o => x.claimed 0x0A (unitIndex x.queue.unit * 8 + o.queue) && (match x.chan o.channel with | some e => e.kind == 0x09 && x.mine e.dest | none => false)
  | .ethGcl _ => true
  | .invRecord o => (x.chan o.channel).isSome
  | _ => decide (i < x.cmds.length)

/-- The header's rules (R62): TIMED only after LAUNCH_AT, SIGNAL_UNIT in TOPOLOGY, BANK 1 waits on cores, Pewter engines and pipelines only. -/
def ProgCtx.headerOk (x : ProgCtx) (i : Nat) (h : Header) : Bool :=
  let prev := if i = 0 then none else x.cmds[i - 1]?
  (!h.timed || (match prev with | some c => (match c.body with | .launchAt _ => true | _ => false) | none => false)) &&
  (h.signalUnit == 0 || (if x.legal then h.signalUnit == unitField .invar else x.st.names h.signalUnit)) &&
  !(h.wait && h.waitBank && ! [0x05, 0x04, 0x02, 0x03].contains (unitClass x.queue.unit))

/-- One command of a list from its bytes. -/
def ProgCtx.commandOk (x : ProgCtx) (i : Nat) (raw : List Byte) : Bool :=
  match commandOf raw with
  | some c => accepts x.queue c.body && c.body.wf && x.headerOk i c.hdr && x.bodyOk i c.body
  | none => false

/-- A list's unit has its power domain claimed, a core that of its sequencer (R42); Invar's is domain 92 of LEGAL. DESIGN CHOICE (log 116). -/
def powered (claims : List ClaimRec) (u : UnitId) : Bool :=
  let ds := match u with | .tc n => [10 * n.val + 9] | _ => unitDomains u
  ds.all (fun d => claims.any (fun c => c.kind == 0x06 && c.index == d))

/-- The phases of the schedule sets that PLACEMENTS pairs with a program set: the fewest. -/
def pairedPhases (st : Stream) (n : Nat) : Nat :=
  ((st.placements.filter (fun p => p.programSet == n)).filterMap (fun p => (st.schedules[p.scheduleSet]?).map (fun c => c.phases.length))).foldl min 8

/-- The lists of one program set: a list record's own rules, then its commands; LEGAL lists run on Invar's queues only. -/
def setFault (st : Stream) (legal : Bool) (n : Nat) (raw : List (Nat × Nat × List (List Byte))) : Option LoadFail :=
  let set := listsOfSet raw
  let chans := st.entries ++ (match st.legal with | some l => l.entries | none => [])
  let claims := if legal then (match st.legal with | some l => l.claims | none => []) else st.claims
  firstBad raw (fun i l =>
    match queueOf l.1 with
    | none => some (0x12, i * 2 ^ 12)
    | some q =>
      let mine := if legal then q.unit == .invar else q.unit != .invar && st.names (unitField q.unit)
      let phases := if legal then 1 else pairedPhases st n
      let cmds := l.2.2.map commandOr
      let x : ProgCtx := ⟨st, chans, claims, legal, q, l.2.1, cmds, set, i⟩
      firstFail [
        need (mine && powered claims q.unit && q.wf && (if legal then true else field l.1 22 10 == st.own) && decide (l.2.1 ≤ 7) && decide (l.2.1 < phases)) 0x12 (i * 2 ^ 12),
        firstBad l.2.2 (fun j c => need (x.commandOk j c) 0x12 (i * 2 ^ 12 + min j 4095)),
        need (match cmds.getLast? with | some c => c.hdr.last | none => false) 0x12 (i * 2 ^ 12 + min (cmds.length - 1) 4095)])

/-- BAD_PROGRAM: every program set, then LEGAL's. DEDUCED (log 83). -/
def check14 (img : List Byte) (st : Stream) : Option LoadFail :=
  let t := sectionsOf img
  firstFail [
    firstBad (rawSets (bodyOf img t 7)) (fun n set => setFault st false n set),
    match sectionOf t 0xA with
    | some e =>
      let b := slice img e.offset e.length
      firstBad (rawSets (bodyOf b (tableOf b 64 (u16 b 6)) 7)) (fun n set => setFault st true n set)
    | none => none]

/-! ## Check 15: weights (R49, R50) -/

/-- The virtual pages that a weight's bytes touch. -/
def WeightRec.pages (w : WeightRec) : List Nat :=
  if w.length = 0 then [] else (List.range ((w.destAddr + w.length - 1) / 4096 + 1 - w.destAddr / 4096)).map (w.destAddr / 4096 + ·)

/-- Whether a page run covers a virtual page. -/
def Stream.covers (st : Stream) (p : Nat) : Bool := st.runs.any (fun r => decide (r.virt ≤ p) && decide (p < r.virt + r.count))

/-- The bytes of a weight from its source; none for one that the host must upload first. DESIGN CHOICE (log 90). -/
def State.weightBytes (s : State) (w : WeightRec) : Option (List Byte) :=
  match w.source with
  | 0 => some (s.flashBytes w.srcAddr w.length)
  | 1 => (s.loader.uploads.find? (fun u => u.1 == w.id)).map (·.2)
  | 2 => some (s.virtBytes w.destAddr w.length).1
  | _ => some (Sys2Proof.Config.neighbourBytes (w.flags % 1024) w.srcAddr w.length)

/-- What check 15 answers for one weight. -/
inductive WeightCheck where
  | ok
  | wanted
  | failed (f : LoadFail)

/-- One weight: where it lands, its source, its digest. DESIGN CHOICE (log 109). -/
def State.weightCheck (s : State) (reload : Bool) (st : Stream) (w : WeightRec) : WeightCheck :=
  let valid (p : Nat) : Bool := pteValid (s.pte p)
  let okDest := w.pages.all st.covers
  let okSource := match w.source with
    | 2 => reload && w.pages.all valid
    | 3 => st.units.any (fun u => u.role == 0x50 && u.param == w.flags % 1024)
    | n => decide (n ≤ 1)
  if !(okDest && okSource && (st.weights.filter (fun x => x.id == w.id)).length == 1) then .failed (0x14, w.id)
  else match s.weightBytes w with
    | none => .wanted
    | some bs => if bs.length == w.length && sha384 bs == w.digest then .ok else .failed (0x13, w.id)

/-! ## The checks in order -/

/-- Checks 1 to 14: the staged stream and its placement, or the first failure with INVAR_CONFLICT. `o` holds the key slots with accepted tokens
applied (R374). -/
def State.runChecks (s : State) (o : Otp) (img : List Byte) : Except (LoadFail × Bool) (Stream × Nat) :=
  match check1 img with
  | some f => .error (f, false)
  | none =>
    match check2 img with
    | some f => .error (f, false)
    | none =>
      let t := sectionsOf img
      let m := messageOf img
      match firstFail [check3 img, o.signFault (bodyOf img t 1) m, s.check6 o img] with
      | some f => .error (f, false)
      | none =>
        let st := streamOf img m s.stream
        let shape : Stream := if isReload img then
            { st with deviceNumber := u16 img 0x0E, deviceCount := u16 img 0x20, topologyKind := u8 img 0x22, dimX := u16 img 0x24,
                      dimY := u16 img 0x26, dimZ := u16 img 0x28 }
          else st
        match firstFail [s.check7 shape, s.check8 img] with
        | some f => .error (f, false)
        | none =>
          let pick := if isReload img then
              (match st.placements[s.placement]? with | some p => if s.available st p then some s.placement else none | none => none)
            else s.takeShares.choose st
          match pick with
          | none => .error ((9, 0), false)
          | some n =>
            match st.placements[n]? with
            | none => .error ((9, 0), false)
            | some p =>
              match firstFail [s.check10 o img st, check11 img st p, s.check12 img st p, check13 img st, check14 img st] with
              | some f => .error (f, invarConflict st f)
              | none => .ok (st, n)

/-- The checks on the ROM default stream, which it passes like any other stream (R56) wherever a placement of it is available (R46). -/
def State.romChecks (s : State) (img : List Byte) : Except (LoadFail × Bool) (Stream × Nat) :=
  let st := defaultStream (streamOf img (messageOf img) none)
  match s.takeShares.choose st with
  | some n => .ok (st, n)
  | none => .error ((9, 0), false)

end Sys2Proof.Machine
end

