-- ==== Sys2Proof/Machine/Invar.lean ====
section
/-! DEFINITION. Machine/Invar.lean: the sealed measuring partition: records, checkpoints, audit trail, UART, start and kill (R305-R320).

The places of the fields of an audit entry body, of which the spec lists the contents, are the model's (log 12). -/

namespace Sys2Proof.Machine

open Sys2Proof

def rInv (off : Nat) : Nat := blkInv + off

/-- INV_INPUT_DROP, INV_UART_BAD. -/
def rInvDrop : Nat := rInv 0x050
def rUartBad : Nat := rInv 0x054
/-- INV_STATUS, whose cell keeps REPLAY_LOST. -/
def rInvStatus : Nat := rInv 0x000

/-- Invar changed. -/
def State.onInv (s : State) (f : Invar → Invar) : State := { s with inv := f s.inv }

/-- The sealed SRAM's place among the scratchpads. -/
def sealed : Fin 7 := 6

/-- SEAL_OK (R311). -/
def State.sealOk (s : State) : Bool :=
  s.inv.running && !s.inv.cal && s.inv.trailOk && !s.inv.failed && s.trip.isNone && !s.boot.inReset

/-! ## Records (R315) -/

/-- FLAGS of a record, from the switch, the time unit, the marks of its input and its result. -/
def State.recordFlags (s : State) (marks : Nat) (gap poisoned : Bool) : Nat :=
  b2n s.inv.cal + 2 * (marks % 8) + 16 * b2n gap + 32 * b2n (!s.time.valid) + 64 * b2n s.time.holdover + 128 * b2n poisoned

/-- The first 96 bytes of a record. -/
def recordBody (seq tick type flags digest frame epoch channel : Nat) (payload : List Byte) : List Byte :=
  leBytes 8 seq ++ leBytes 8 tick ++ leBytes 2 type ++ leBytes 2 flags ++ leBytes 4 digest ++ leBytes 4 frame ++ leBytes 2 epoch ++
    leBytes 2 channel ++ slice payload 0 64

/-- A record written to its slot of the record ring (R315). -/
def State.publishRecord (s : State) (seq : Nat) (r : List Byte) : State :=
  match s.inv.legal with
  | some l => if l.recordPages = 0 then s else s.winWrite (l.recordPage * 4096 + (seq - 1) % (32 * l.recordPages) * 128) r
  | none => s

/-- The next record of the chain, kept in sealed SRAM (the last 16,384, R317) and published. -/
def State.addRecord (s : State) (tick type flags digest frame epoch channel : Nat) (payload : List Byte) : State :=
  let n := s.inv.seq + 1
  let b := recordBody n tick type flags digest frame epoch channel payload
  let h := sha384 (if n = 1 then b else s.inv.hash ++ b)
  let r := b ++ h.take 32
  let rs := s.inv.records ++ [r]
  (s.onInv (fun v => { v with
    seq := n, hash := h, records := rs.drop (rs.length - 16384), sinceCkpt := v.sinceCkpt + 1 })).publishRecord n r

/-- An event record (R315): its code and data. -/
def State.eventRecord (s : State) (code data : Nat) : State :=
  if s.inv.running then s.addRecord s.now 3 (s.recordFlags 0 false false) 0 0 0 0 (leBytes 2 code ++ leBytes 8 data) else s

/-- The one-way inputs pause for a main-stream load, and the chain says so (R48, R315). -/
def State.pauseInvar (s : State) : State := if s.inv.running && !s.inv.paused then (s.onInv (fun v => { v with paused := true })).eventRecord 3 0 else s

/-- The inputs resume (R48, R315). -/
def State.resumeInvar (s : State) : State := if s.inv.paused then (s.onInv (fun v => { v with paused := false })).eventRecord 4 0 else s

/-- INV_RECORD (R315): a result with the payload line, the input channel and the record's time. -/
def invRecordWork (o : InvRecordOps) (h : Holder) (s : State) : State :=
  let i := (look none s.inv.inputs o.channel).getD ⟨0, 0, 0, 0, false⟩
  let c := s.cores[sealed]
  let s1 := s.touchLines sealed [o.line]
  ((s1.addRecord o.tick 1 (s.recordFlags i.marks i.gap (c.poisoned o.line)) i.digest i.frame i.epoch o.channel (c.bytes (64 * o.line) 64)).onInv
    (fun v => { v with inputs := put none v.inputs o.channel (some { i with gap := false }) })).worked h

/-! ## Checkpoints (R316, R320) -/

/-- Bytes 0x008 to 0x0FF of a checkpoint. -/
def State.checkpointBody (s : State) : List Byte :=
  let l := s.inv.legal
  let st := s.stream
  leBytes 8 s.inv.seq ++ leBytes 8 s.now ++ slice s.inv.nonce 0 16 ++ slice s.inv.hash 0 48 ++
    slice (match l with | some l => l.digest | none => []) 0 48 ++ slice (match st with | some t => t.structureDigest | none => []) 0 48 ++
    leBytes 8 (match st with | some t => t.id | none => 0) ++ leBytes 8 (match l with | some l => l.instrument | none => 0) ++
    leBytes 4 (match l with | some l => l.version | none => 0) ++ leBytes 2 s.otp.audit ++ leBytes 2 (b2n s.inv.cal + 2 * b2n (!s.inv.cal)) ++
    List.replicate 48 0

/-- A checkpoint is due (R316): it is signed now, or once the one being signed is done. -/
def State.beginCheckpoint (s : State) : State :=
  if !s.inv.running then s
  else if s.inv.signing.isSome then s.onInv (fun v => { v with due := true })
  else s.onInv (fun v => { v with signing := some s.checkpointBody, due := false, sinceCkpt := 0, ckptTick := s.now })

/-- The signatures of the Invar key over a hash. -/
def invarSigns (msg : List Byte) : List Byte :=
  slice (Sys2Proof.Config.signature 0 1 msg) 0 384 ++ slice (Sys2Proof.Config.signature 1 1 msg) 0 35664

/-- The checkpoint being signed is written to the next slot in rotation, and one that became due meanwhile begins (R316). DESIGN CHOICE (log 93). -/
def State.endCheckpoint (s : State) : State :=
  match s.inv.signing, s.inv.legal with
  | some b, some l =>
    let n := s.inv.ckptSeq + 1
    let c := leBytes 8 n ++ b ++ invarSigns (sha384 b) ++ List.replicate 48 0
    let s := s.onInv (fun v => { v with signing := none, ckptSeq := n, latest := c })
    let s := if l.ckptSlots = 0 then s else s.winWrite (l.ckptPage * 4096 + (n - 1) % l.ckptSlots * 36864) c
    if s.inv.due then s.beginCheckpoint else s
  | _, _ => s

/-- A checkpoint before a kill that leaves time for it (R316). -/
def State.checkpointNow (s : State) : State := (if s.inv.signing.isSome then s.endCheckpoint else s.beginCheckpoint).endCheckpoint

/-! ## Start and kill (R315, R319) -/

/-- Invar's queues at the start of their lists. -/
def State.startInvar (s : State) : State :=
  (unitPorts .invar).foldl (fun s p =>
    let q : QueueId := ⟨.invar, p⟩
    s.setQueue q { QState.start with wait := if (s.listsOf q).isEmpty then ⟨5, 0, false, 0⟩ else .running }) s

/-- A kill of Invar's job: its queues stop and the whole sealed SRAM is scrubbed before anything else runs (R319). -/
def State.killInvar (s : State) : State :=
  let s := s.onInv (fun v => { v with running := false, records := [], signing := none, due := false, latest := [], inputs := [], acked := true, retries := 0 })
  let s := s.onCore sealed (fun c => { c with lines := [], claims := [] })
  let s := { s with
    job := { s.job with invLists := [], barriers := wipe s.job.barriers 16 32 }
    tokens := wipe s.tokens (unitIdx .invar * 64) (unitIdx .invar * 64 + 64)
    time := { s.time with armed := s.time.armed.filter (fun a => a.holder.queue.unit != .invar) }
    timers := cancelTimers (fun _ x => match x.waiting with | some q => q.unit == .invar | none => false) s.timers }
  (unitPorts .invar).foldl (fun s p => s.setQueue ⟨.invar, p⟩ QState.start) s

/-- Bytes placed in sealed SRAM from a line on. -/
def State.sealBytes (s : State) (line : Nat) (bs : List Byte) : State :=
  s.writeLines sealed none false (bytesWrites line bs false false)

/-- A segment starts (R313, R315): VALUES and BLOB are copied, its queues start, and a new chain begins with a genesis record. DESIGN CHOICE (log 93). -/
def State.startSegment (s : State) (l : Legal) : State :=
  let nonce := slice (Sys2Proof.Config.random s.sec.draws) 0 16
  let s := { s with sec := { s.sec with draws := s.sec.draws + 1 } }
  let s := s.onInv (fun v => { v with
    legal := some l, effect := l.digest, running := true, failed := false, seq := 0, hash := [], nonce := nonce, records := [], sinceCkpt := 0,
    ckptTick := s.now, ckptSeq := 0, signing := none, due := false, latest := [], inputs := [], paused := false, acked := true, retries := 0 })
  let s := (s.sealBytes 0 l.values).sealBytes l.blobLine l.blob
  let s := { s with job := { s.job with invLists := l.lists } }
  s.startInvar.addRecord s.now 2 (s.recordFlags 0 false false) 0 0 0 0 (nonce ++ slice l.digest 0 48)

/-- Whether the lines of VALUES and BLOB still hold what the segment placed there (R320). -/
def State.sealIntact (s : State) (l : Legal) : Bool :=
  let c := s.cores[sealed]
  let ok (line : Nat) (bs : List Byte) : Bool :=
    c.bytes (64 * line) bs.length == bs && (linesOf line (8 * bs.length)).all (fun n => !c.poisoned n)
  ok 0 l.values && ok l.blobLine l.blob

/-- CHECKPOINT_DUE (R316, R320): 1,024 records, or 10 s, since the previous checkpoint; VALUES, BLOB and program are checked, and a checkpoint begins. A failed check drives SEAL_OK low; the job is killed and
the segment restarts from its signed copy with a new chain (R319). DESIGN CHOICE (log 93). -/
def State.checkpointDue (s : State) : State :=
  match s.inv.legal with
  | some l =>
    if !s.inv.running then s
    else
    let s := if s.inv.sinceCkpt < 1024 then { s with now := max s.now (s.inv.ckptTick + 10 * 16_000_000_000) } else s
    if s.sealIntact l then s.beginCheckpoint
    else ((s.onInv (fun v => { v with failed := true })).killInvar).startSegment l
  | none => s

/-! ## Inputs (R307) -/

/-- Tokens of a channel that have been sent and not yet accepted: those whose credit has not come back. -/
def Chan.unaccepted (c : Chan) : Nat :=
  c.ent.creditDepth - (match c.recv[0]? with | some r => r.credits | none => 0) - c.flying

/-- INVAR_INPUT: the oldest token not yet accepted is taken and its credit returned at once, or it is discarded whole when the buffer is full (R307). DESIGN CHOICE (log 92). -/
def State.invarInput (s : State) (i : Nat) : State :=
  let c := s.chan i
  let n := min c.unaccepted c.inbox.length
  if !s.hasChan i || c.ent.kind != 0x0A || n = 0 then s
  else
    let taken := c.inbox.length - n
    let s1 := s.onChan i (fun c => c.credit 0 1)
    let old := (look none s.inv.inputs i).getD ⟨0, 0, 0, 0, false⟩
    if Sys2Proof.Config.invarRoom i ≤ taken then
      let s2 := ((s1.onChan i (fun c => { c with inbox := c.inbox.eraseIdx taken })).dropToken i 1).count rInvDrop 1
      (s2.onInv (fun v => { v with inputs := put none v.inputs i (some { old with gap := true }) })).eventRecord 5 i
    else
      let t := c.inbox.getD taken ⟨Marks.none, 0, 0, 0, []⟩
      let m := b2n t.marks.flagged + 2 * b2n t.marks.poisoned + 4 * b2n t.marks.pad
      let marks := if t.marks.frameStart then m else old.marks ||| m
      s1.onInv (fun v => { v with inputs := put none v.inputs i (some ⟨t.frame, t.epoch, c.ent.digest, marks, old.gap⟩) })

/-! ## The seal switch (R310) and replay (R317) -/

/-- CAL_ENABLE_CHANGE (R310): the debounced switch; a running segment writes an event record and a checkpoint. -/
def State.calChange (s : State) (low : Bool) : State :=
  if s.inv.cal = low then s
  else
    let s := s.onInv (fun v => { v with cal := low })
    if s.inv.running then (s.eventRecord (if low then 1 else 2) 0).beginCheckpoint else s

/-- INV_REPLAY (R317): records from a sequence number on that are still held are published again, then the latest checkpoint. -/
def State.replay (s : State) (w : Word) : State :=
  let n := w.toNat + s.inv.seq / 2 ^ 32 * 2 ^ 32
  let first := s.inv.seq + 1 - s.inv.records.length
  let s1 := if 0 < n && n < first then s.setRegField rInvStatus 9 1 1 else s
  let s2 := (s.inv.records.zipIdx).foldl (fun s x => if n ≤ first + x.2 then s.publishRecord (first + x.2) x.1 else s) s1
  match s.inv.legal with
  | some l =>
    if s.inv.latest.isEmpty || l.ckptSlots = 0 then s2
    else s2.winWrite (l.ckptPage * 4096 + (s.inv.ckptSeq - 1) % l.ckptSlots * 36864) s.inv.latest
  | none => s2

/-! ## The legal UART (R318) -/

/-- A UART frame; its CRC goes out low byte first (R11). DESIGN CHOICE (log 94). -/
def uartFrame (type : Nat) (payload : List Byte) : List Byte :=
  let b := leBytes 1 payload.length ++ leBytes 1 type ++ payload
  [1] ++ b ++ leBytes 2 (crc16 b)

/-- The TYPE of a received frame; none when it is malformed, its CRC is wrong, or its TYPE is unknown. -/
def uartType (f : List Byte) : Option Nat :=
  let n := u8 f 1
  let b := (f.drop 1).take (2 + n)
  if u8 f 0 = 1 ∧ f.length = 5 + n ∧ n = 0 ∧ u16 f (3 + n) = crc16 b ∧ 1 ≤ u8 f 2 ∧ u8 f 2 ≤ 3 then some (u8 f 2) else none

/-- IDENT (R308). -/
def State.identFrame (s : State) : List Byte :=
  uartFrame 0x12 (slice s.inv.effect 0 48 ++ leBytes 4 (match s.inv.legal with | some l => l.version | none => 0) ++ leBytes 2 s.otp.audit ++
    leBytes 1 (b2n (!s.inv.cal)))

/-- A received frame (R318): ACK, REQ_IDENT or REQ_LAST; any other is discarded and counted. -/
def State.uartIn (s : State) (f : List Byte) : State :=
  if !s.inv.running then s
  else match uartType f with
    | some 1 => s.onInv (fun v => { v with acked := true, retries := 0 })
    | some 2 => s.onInv (fun v => { v with out := s.identFrame })
    | some 3 => if s.inv.last.isEmpty then s else s.onInv (fun v => { v with out := v.last })
    | _ => s.count rUartBad 1

/-- INV_INDICATE (R318): LEN bytes of sealed SRAM sent as a RESULT, or a CAL_RESULT in calibration mode. -/
def invIndicateWork (o : InvIndicateOps) (h : Holder) (s : State) : State :=
  let f := uartFrame (if s.inv.cal then 0x11 else 0x10) (s.cores[sealed].bytes (64 * o.line) o.len)
  ((s.touchLines sealed (linesOf o.line (8 * o.len))).onInv (fun v => { v with last := f, acked := false, retries := 3, out := f })).worked h

/-- UART_RETRY (R318): an indication not acknowledged within 100 ms is sent again, at most three times. -/
def State.uartRetry (s : State) : State :=
  if s.inv.acked || s.inv.retries = 0 then s else s.onInv (fun v => { v with out := v.last, retries := v.retries - 1 })

/-! ## The audit trail (R313) -/

/-- Where the trail lies in flash. -/
def State.trailBase (s : State) : Option Nat := (s.region 6).map (·.1)

/-- An entry body. DESIGN CHOICE (log 12). -/
def trailBody (step cause tick : Nat) (old new : List Byte) (instrument version : Nat) (prev : List Byte) : List Byte :=
  leBytes 4 step ++ leBytes 4 cause ++ leBytes 8 tick ++ slice old 0 48 ++ slice new 0 48 ++ leBytes 8 instrument ++ leBytes 4 version ++
    leBytes 4 0 ++ slice prev 0 48 ++ List.replicate 80 0

/-- The body of STEP `n`. DESIGN CHOICE (log 12). -/
def State.trailEntry (s : State) (base n : Nat) : List Byte := s.flashBytes (base + 256 * (n - 1)) 256

/-- The chain of bodies down from STEP `n` reaches a CAUSE 1 entry that starts a trail. -/
def State.chainOk (s : State) (base : Nat) : Nat → Bool
  | 0 => false
  | n + 1 =>
    let b := s.trailEntry base (n + 1)
    u32 b 0 == n + 1 && decide (1 ≤ u32 b 4) && decide (u32 b 4 ≤ 3) &&
      ((u32 b 4 == 1 && zeroAt b 0x80 48) || (slice b 0x80 48 == sha384 (s.trailEntry base n) && s.chainOk base n))

/-- The signatures of STEP `n` verify in its slot. -/
def State.trailSigned (s : State) (base n : Nat) : Bool :=
  let m := sha384 (s.trailEntry base n)
  let at0 := base + 1048576 + n % 2 * 36864
  Sys2Proof.Config.verifies 0 (Sys2Proof.Config.publicKeys 1) m (s.flashBytes at0 384) &&
    Sys2Proof.Config.verifies 1 (Sys2Proof.Config.publicKeys 1) m (s.flashBytes (at0 + 384) 35664)

/-- Whether the trail ends, whole and signed, with STEP `n`; an empty trail ends with 0. -/
def State.trailEnds (s : State) (n : Nat) : Bool :=
  n == 0 || (match s.trailBase with
    | some b => s.chainOk b n && s.trailSigned b n
    | none => false)

/-- An entry appended: its body, then its signatures (R313). -/
def State.appendTrail (s : State) (step cause : Nat) (old new : List Byte) (instrument version : Nat) : State :=
  match s.trailBase with
  | none => s
  | some b =>
    let prev := if cause = 1 || step ≤ 1 then List.replicate 48 0 else sha384 (s.trailEntry b (step - 1))
    let e := trailBody step cause s.now old new instrument version prev
    (s.flashWrite (b + 256 * (step - 1)) e).flashWrite (b + 1048576 + step % 2 * 36864) (invarSigns (sha384 e))

/-- The DIGEST that the entry of STEP `n` leaves in effect. -/
def State.trailDigest (s : State) (n : Nat) : List Byte :=
  if n = 0 then []
  else match s.trailBase with
    | some b => (let d := slice (s.trailEntry b n) 0x40 48; if d.all (· == 0) then [] else d)
    | none => []

/-- The trail check at start-up (R313). -/
def State.trailCheck (s : State) : State :=
  let n := s.otp.audit
  if s.trailEnds n then s.onInv (fun v => { v with trailOk := true, effect := s.trailDigest n })
  else if s.trailEnds (n - 1) then
    let d := s.trailDigest (n - 1)
    (s.appendTrail n 3 d d 0 0).onInv (fun v => { v with trailOk := true, effect := d })
  else s.onInv (fun v => { v with trailOk := false, effect := [] })

/-- INV_AUDIT.WARN for a number of steps used (R314). -/
def auditWarn (used : Nat) : Nat := if 4096 ≤ used then 3 else if 3072 ≤ used then 2 else if 2048 ≤ used then 1 else 0

/-- A step burnt (R313, R314): a warning threshold crossed raises INVAR. -/
def State.burnAudit (s : State) : State :=
  let n := s.otp.audit + 1
  let s1 := { s with otp := { s.otp with audit := n } }
  if auditWarn s.otp.audit < auditWarn n then s1.irq .invar else s1

/-! ## A load meets Invar (R48, R312) -/

/-- Why a legally relevant change is refused now: 0 it is not (R312). A trail that has not verified is started anew by a load in calibration mode (R313). -/
def State.changeRefused (s : State) : Nat :=
  if 4096 ≤ s.otp.audit then 1 else if !s.inv.cal || !s.loader.calLow then 2 else 0

/-- Whether Invar runs a segment once a full load has met the staged one: its job goes on, or a segment starts (R48, R312). -/
def State.invarRuns (s : State) (l : Option Legal) : Bool :=
  s.inv.running || (match l with
    | some l => s.inv.trailOk && s.inv.effect == l.digest || s.changeRefused == 0
    | none => false)

/-- A refused change: the segment in effect stays (R312). A change that check 10 found in calibration mode and that finds the switch high at its commit has killed the
job, which restarts from its signed copy (R314). DEDUCED (log 68). -/
def State.keepLegal (s : State) (reason : Nat) : State :=
  let s := match s.inv.legal with
    | some l => if reason = 2 && s.inv.running && s.loader.calLow && !s.inv.cal then s.checkpointNow.killInvar.startSegment l else s
    | none => s
  (s.onInv (fun v => { v with kept := true, keptReason := reason })).setRegField 0x084 16 1 1

/-- The commit of a legally relevant change (R312, R313): the job is killed, a step is burnt, the trail takes an entry, and the new segment starts. -/
def State.commitLegal (s : State) (l : Legal) : State :=
  let s := (if s.inv.running then s.checkpointNow else s).killInvar
  let old := s.inv.effect
  let fresh := !s.inv.trailOk || s.otp.audit == 0
  let s := s.burnAudit
  let s := s.appendTrail s.otp.audit (if fresh then 1 else 2) old l.digest l.instrument l.version
  (s.onInv (fun v => { v with trailOk := true, kept := false, keptReason := 0 })).startSegment l

/-- Order 7 of a full load for the LEGAL segment of the new stream (R48, R312, R313): an equal DIGEST continues or starts its segment, a different one
is a legally relevant change. -/
def State.loadLegal (s : State) (l : Legal) : State :=
  let s := s.onInv (fun v => { v with kept := false, keptReason := 0 })
  if s.inv.running && s.inv.effect == l.digest then s.onInv (fun v => { v with legal := some l })
  else if s.inv.trailOk && s.inv.effect == l.digest then s.startSegment l
  else match s.changeRefused with
    | 0 => s.commitLegal l
    | 2 => s.keepLegal (if s.inv.trailOk then 2 else 3)
    | r => s.keepLegal r

/-- A change of the time source's state noted in the chain (R315). -/
def State.timeNote (old s : State) : State :=
  if !old.time.holdover && s.time.holdover then s.eventRecord 6 0
  else if old.time.holdover && !s.time.holdover then s.eventRecord 7 0
  else s

end Sys2Proof.Machine
end

