-- ==== Sys2Proof/Machine/Ethernet.lean ====
section
/-! DEFINITION. Machine/Ethernet.lean: Ethernet flows and scheduled transmission (R225, R226, R302-R304). -/

namespace Sys2Proof.Machine

open Sys2Proof

/-- A frame's check sequence, CRC-32 of IEEE 802.3. PRESUMED (log 7). -/
def ethCrc (bs : List Byte) : Nat :=
  let step (c : Nat) : Nat := if c.testBit 0 then (c / 2) ^^^ 0xEDB8_8320 else c / 2
  (bs.foldl (fun c b => (List.range 8).foldl (fun x _ => step x) (c ^^^ b.toNat)) (2 ^ 32 - 1)) ^^^ (2 ^ 32 - 1)

/-- Big-endian bytes, as Ethernet fields are sent. -/
def beBytes (n x : Nat) : List Byte := (leBytes n x).reverse

/-! ## Gates (R225) -/

/-- Resource type of scheduled-transmission queues. -/
def resEthQueue : Nat := 0x0A

/-- Ticks of a number of ns. -/
def nsTicks (n : Nat) : Nat := 16 * n

/-- Whether a port runs at 25 Gb/s (its ROLE). -/
def State.fastPort (s : State) (n : Nat) : Bool :=
  match s.stream.bind (fun st => st.units.find? (fun u => field u.unit 8 14 == 0x900 + n)) with
  | some u => u.role == 0x59
  | none => false

/-- Ticks that a frame takes on the wire, its preamble included. DESIGN CHOICE (log 49). -/
def State.frameTicks (s : State) (n : Nat) (bs : List Byte) : Nat :=
  if s.fastPort n then ceilDiv ((bs.length + 8) * 128) 25 else ceilDiv ((bs.length + 8) * 64) 5

/-- Whether a gate is open in an entry. -/
def GateList.isOpen (g : GateList) (i q : Nat) : Bool := ((g.entries.getD (i % max 1 g.entries.length) (255, 0)).1).testBit q

/-- Ticks from the end of entry `i` for which class `q` stays open, over at most `k` entries; `none`: it never closes. -/
def GateList.openFor (g : GateList) (q : Nat) : Nat → Nat → Option Nat
  | 0, _ => none
  | k + 1, i =>
    if g.isOpen (i + 1) q then
      (g.openFor q k (i + 1)).map (· + nsTicks ((g.entries.getD ((i + 1) % max 1 g.entries.length) (0, 0)).2))
    else some 0

/-- Whether a frame of a class may start: its gate is open, and it ends before the gate closes. -/
def State.mayLeave (s : State) (n q : Nat) (bs : List Byte) : Bool :=
  let p := s.ethPort n
  match p.gcl with
  | none => true
  | some g =>
    g.isOpen p.gate q &&
    (match g.openFor q g.entries.length p.gate with
     | none => true
     | some t => decide (s.now + s.frameTicks n bs ≤ p.gateEnd + t))

/-- A frame has left the port: its token's credit is regained with the last, and its command's work is finished (R303). -/
def State.frameLeft (s : State) (n : Nat) (f : EthFrame) : State :=
  let s := s.onEth n (fun p => { p with out := f.data })
  if f.last then (s.returnCredits f.chan 1).worked f.holder else s

/-- Held frames leave in their order, class by class, while their gates allow. -/
def State.drainFrames : Nat → State → Nat → State
  | 0, s, _ => s
  | k + 1, s, n =>
    let p := s.ethPort n
    let first (f : EthFrame) : Bool := (p.held.find? (fun g => g.queue == f.queue)) == some f
    match p.held.find? (fun f => first f && s.mayLeave n f.queue f.data) with
    | none => s
    | some f => ((s.onEth n (fun p => { p with held := p.held.erase f })).frameLeft n f).drainFrames k n

/-- Held frames of a port leave. -/
def State.ethFlush (s : State) (n : Nat) : State := s.drainFrames ((s.ethPort n).held.length + 1) n

/-- The first cycle start of a list at or after its base time and the present (R225). -/
def GateList.start (g : GateList) (now : Nat) : Nat :=
  if now ≤ g.base then g.base else g.base + ceilDiv (now - g.base) (max 1 (nsTicks g.cycle)) * nsTicks g.cycle

/-- GCL_CYCLE_START (R225): the list that waits takes effect at its first cycle start. -/
def State.gclStart (s : State) (n : Nat) : State :=
  match (s.ethPort n).next with
  | none => s
  | some g =>
    let t := g.start s.now
    let s := (s.reach t).onEth n (fun p => { p with
      gcl := some g, next := none, gate := 0, gateEnd := t + nsTicks (g.entries.getD 0 (0, 0)).2 })
    s.ethFlush n

/-- GATE_INTERVAL (R225): an entry's interval ends, the next entry's gates apply, and held frames may leave. -/
def State.gateInterval (s : State) (n : Nat) : State :=
  match (s.ethPort n).gcl with
  | none => s
  | some g =>
    let t := (s.ethPort n).gateEnd
    let i := ((s.ethPort n).gate + 1) % max 1 g.entries.length
    let s := (s.reach t).onEth n (fun p => { p with gate := i, gateEnd := t + nsTicks (g.entries.getD i (0, 0)).2 })
    s.ethFlush n

/-- BAD_PROGRAM of a command that fails while it runs, with its list and place as a load reports them (R49, R226). DESIGN CHOICE (log 50). -/
def State.badProgram (s : State) (h : Holder) : State :=
  let li := match s.currentList h.queue with | some l => l.index | none => 0
  let pos := match s.prog h with | some e => e.pos | none => 0
  (s.setRegField 0x084 8 8 0x12).setReg 0x088 (li * 4096 + min pos 4095)

/-- ETH_GCL goes on (R226): the list is read and judged; a list that breaks its rules is not loaded. DESIGN CHOICE (log 50). -/
def State.runEthGcl (s : State) (h : Holder) (o : EthGclOps) : State :=
  match s.readBlock 3 h o.addr (8 * o.entries) with
  | (false, s1) => s1
  | (true, s1) =>
    let n := unitIndex h.queue.unit
    let bs := (s1.mover h).buf
    let es := (List.range o.entries).map (fun i => (leAt bs (8 * i) 1, leAt bs (8 * i + 4) 4))
    let unclaimed := es.any (fun e => (List.range 8).any (fun q => e.1.testBit q && !s1.claimed resEthQueue (8 * n + q)))
    let sum := es.foldl (fun a e => a + e.2) 0
    let bad := unclaimed || sum != o.cycleNs || decide (s1.now + 2 ^ 63 < o.baseTick) || (s1.mover h).poisoned
    let s2 := if bad then s1.badProgram h else s1.onEth n (fun p => { p with next := some ⟨o.baseTick, o.cycleNs, es⟩ })
    s2.worked h

/-- ETH_GCL: the work of one command. -/
def ethGclWork (o : EthGclOps) (h : Holder) (s : State) : State := s.runEthGcl h o

/-! ## Flows (R302, R303) -/

/-- ETH_FLOW goes on: its entries are read; they take effect at completion (R302). -/
def State.runEthFlow (s : State) (h : Holder) (o : EthFlowOps) : State :=
  match s.readBlock 6 h o.addr (32 * o.count) with
  | (false, s1) => s1
  | (true, s1) => s1.worked h

/-- ETH_FLOW: the work of one command. -/
def ethFlowWork (o : EthFlowOps) (h : Holder) (s : State) : State := s.runEthFlow h o

/-- The flow header of a segment (R303). DESIGN CHOICE (log 49). -/
def flowHeader (t : Token) (flow : List Byte) (device seq at0 len marks : Nat) : List Byte :=
  leBytes 1 1 ++ leBytes 1 marks ++ slice flow 0x10 2 ++ leBytes 2 device ++ leBytes 2 t.epoch ++ leBytes 4 t.frame ++
  leBytes 4 seq ++ leBytes 4 at0 ++ leBytes 2 len ++ leBytes 2 0 ++ leBytes 8 t.ts

/-- The frames of a token on a flow (R303). DESIGN CHOICE (log 49). -/
def tokenFrames (t : Token) (flow : List Byte) (port device seq queue chan : Nat) (h : Holder) : List EthFrame :=
  let size := if leAt flow 0x0E 1 = 1 then 8960 else 1408
  let n := ceilDiv t.data.length size
  (List.range n).map (fun i =>
    let seg := (t.data.drop (size * i)).take size
    let marks := t.marks.byte + (if i = 0 then 64 else 0) + (if i + 1 = n then 128 else 0)
    let src := if zeroAt flow 6 6 then Sys2Proof.Config.portAddress port else slice flow 6 6
    let tag := if (leAt flow 0x0F 1).testBit 0 then beBytes 2 0x8100 ++ beBytes 2 (queue * 2 ^ 13 + leAt flow 0x0C 2 % 4096) else []
    let f := slice flow 0 6 ++ src ++ tag ++ beBytes 2 0x88B5 ++ flowHeader t flow device seq (size * i) seg.length marks ++ seg
    ⟨queue, chan, h, i + 1 == n, f ++ leBytes 4 (ethCrc f)⟩)

/-- ETH_SEND goes on (R226, R303): the channel's next token is cut into frames, which leave as their gate allows. With TIMED set, a first frame that
cannot leave at once counts LATE_LAUNCH, unless the command was late itself and has counted (R68). DESIGN CHOICE (log 50). -/
def State.runEthSend (s : State) (h : Holder) (timed : Bool) (o : EthSendOps) : State :=
  let n := unitIndex h.queue.unit
  if (s.mover h).spent then s
  else match s.takeToken o.channel with
    | (none, _) => s.setMover h { s.mover h with stall := .token }
    | (some t, s1) =>
      let c := s.chan o.channel
      let seq := (c.tokens + 2 ^ 32 - c.inbox.length) % 2 ^ 32
      let flow := look [] (s.ethPort n).flows (field c.ent.dest 0 8)
      let fs := tokenFrames t (slice flow 0 32) n s.device seq o.queue o.channel h
      let s2 := s1.setMover h { s1.mover h with spent := true, stall := .none }
      let s2 := s2.noteMarks h.queue t.marks.poisoned t.marks.flagged
      let late := timed && !(s.mover h).late && !(match fs with
        | f :: _ => s2.mayLeave n f.queue f.data && (s2.ethPort n).held.all (fun g => g.queue != f.queue)
        | [] => true)
      let s2 := if late then s2.count (cLateLaunch h.queue.unit) 1 else s2
      let s2 := (s2.onEth n (fun p => { p with held := p.held ++ fs })).ethFlush n
      if fs.isEmpty then s2.worked h else s2

/-- ETH_SEND: the work of one command. -/
def ethSendWork (hdr : Header) (o : EthSendOps) (h : Holder) (s : State) : State := s.runEthSend h hdr.timed o

/-! ## Reception (R304) -/

/-- ETH_RX_ORPHAN, ETH_RX_MISSING and ETH_RX_DROPPED of a port. -/
def cRxOrphan (n : Nat) : Nat := bank n (blkEth + 0x344)
def cRxMissing (n : Nat) : Nat := bank n (blkEth + 0x348)
def cRxDropped (n : Nat) : Nat := bank n (blkEth + 0x34C)

/-- The bytes of a token being reassembled, zero where missing, and whether any is. -/
def RxToken.bytes (r : RxToken) (n : Nat) : List Byte × Bool :=
  let at0 (i : Nat) : Option Byte := r.segs.findSome? (fun g => if g.1 ≤ i then g.2[i - g.1]? else none)
  let bs := (List.range n).map at0
  (bs.map (·.getD 0), bs.any (·.isNone))

/-- A token delivered to its channel, or discarded whole where the channel has no room (R304). DESIGN CHOICE (log 50). -/
def State.deliverRx (s : State) (port : Nat) (r : RxToken) : State :=
  let c := s.chan r.channel
  let x := r.bytes c.ent.tokenBytes
  let m := Marks.ofByte r.marks
  let m := { m with flagged := m.flagged || x.2 }
  let s := if x.2 then s.count (cRxMissing port) 1 else s
  if c.canSend then
    (s.onChan r.channel (fun c => c.spend)).takeIn r.channel ⟨m, r.frame, r.epoch, r.ts, x.1⟩
  else (s.dropToken r.channel 1).count (cRxDropped port) 1

/-- FLOW_FRAME_RX (R304): a segment joins its token; the token is delivered when it is whole, or when a later one begins. DESIGN CHOICE (log 50). -/
def State.flowFrame (s : State) (port etherType : Nat) (data : List Byte) : State :=
  if etherType ≠ 0x88B5 then s
  else
    let i := leAt data 2 2
    let e := (s.chan i).ent
    let valid := leAt data 0 1 == 1 && s.hasChan i && e.kind == 0x09 && field e.source 22 10 == s.device &&
      field e.source 8 14 == 0x900 + port
    if !valid then s.count (cRxOrphan port) 1
    else
      let marks := leAt data 1 1
      let seg := (leAt data 0x10 4, (data.drop 32).take (leAt data 0x14 2))
      let fresh : RxToken := ⟨i, leAt data 0x0C 4, leAt data 8 4, leAt data 6 2, leAt data 0x18 8, marks % 64, marks.testBit 7, [seg]⟩
      let old := (s.ethPort port).rx.find? (fun r => r.channel == i)
      let s0 := s.onEth port (fun p => { p with rx := p.rx.filter (fun r => r.channel != i) })
      let settle (s : State) (r : RxToken) : State :=
        if r.ended && !(r.bytes e.tokenBytes).2 then s.deliverRx port r
        else s.onEth port (fun p => { p with rx := p.rx ++ [r] })
      match old with
      | none => settle s0 fresh
      | some r =>
        if r.seq = fresh.seq then
          settle s0 { r with segs := r.segs ++ [seg], marks := r.marks ||| fresh.marks, ended := r.ended || fresh.ended }
        else if (fresh.seq + 2 ^ 32 - r.seq) % 2 ^ 32 < 2 ^ 31 then settle (s0.deliverRx port r) fresh
        else s

end Sys2Proof.Machine
end

