-- ==== Sys2Proof/Machine/FrontEnd.lean ====
section
/-! DEFINITION. Machine/FrontEnd.lean: CSI-2 packets, frame closure and the front end's work (R173-R178, R188, R193-R195). -/

namespace Sys2Proof.Machine

open Sys2Proof

/-! ## The front end's steps -/

/-- A frame that has left the front end: its records, its channel's tokens, and the back end's classical path (R188, R204). The default stream
publishes it (R57). -/
def State.endFrame (s : State) (n c : Nat) (f : Frame) : State :=
  if s.boot.isDefault then (s.recordCamera c f).defaultFrame n c f else
  let s := (s.recordCamera c f).emitRecords n c f
  let info : FrameInfo := ⟨f.number, f.epoch, f.fs, f.flagged, f.exps.any (fun x => x.lines.any (·.poisoned))⟩
  let due := (dueSets (s.cam c).bsets (s.cam c).bpending f.number f.epoch (fun _ => true)).1
  if (setBlock due 0).isSome && leAt ((setBlock due 0).getD []) 0 1 == 0 then (s.backStart c info).classical n c f info
  else s.onCam c (fun k => { k with records := k.records ++ [info] })

/-- Whether a frame may go on: during a placement switch inputs are held at the next frame boundary, and a frame that has not begun waits (R47). -/
def State.mayBegin (s : State) (f : Frame) : Bool := s.health.target.isNone || decide (0 < f.row)

/-- Whether a frame's next output row has all its lines. -/
def State.rowReady (s : State) (n c : Nat) (f : Frame) : Bool :=
  let k := s.feCfg n c f
  s.mayBegin f &&
  (List.range k.exposures).all (fun e => match f.exps[e]? with
    | some x => decide (k.lastLine f.row < x.lines.length) || x.phase == 2
    | none => true)

/-- One step on a frame: a waiting token is issued, the next row is computed, or the finished frame leaves. Answers the state and
the frame that remains; `none` when nothing can be done. -/
def State.frameStep (s : State) (n c slot : Nat) (f : Frame) : Option (State × Option Frame) :=
  match f.outq with
  | t :: ts =>
    if (s.chan t.chan).canSend then
      some (s.issueTok t (cShedDrop (.front ⟨n % 4, Nat.mod_lt _ (by decide)⟩)), some { f with outq := ts })
    else none
  | [] =>
    let k := s.feCfg n c f
    if f.row < k.rows then
      if s.rowReady n c f then
        let pad := (s.camEnt c).padValue
        let ls := f.exps.map (·.lines)
        let toks := (s.rowPasses n slot f.band k.rows f.row).filterMap (s.rowToken k f pad f.row)
        let dyn := k.rowDynamic ls pad f.row
        let sats := ((k.rowOut ls pad f.row).filter (·.sat)).length
        some ((s.count (rPp n 0x420) dyn).count (rPp n 0x41C) sats,
          some { f with row := f.row + 1, outq := toks, dynamic := f.dynamic + dyn })
      else none
    else if f.closed && (s.pipe n).outq.isEmpty then some (s.endFrame n c f, none)
    else none

/-- A step on the in-line camera's oldest frame. -/
def State.inlineStep (s : State) (n : Nat) : Option State :=
  match s.inlineCam n with
  | none => none
  | some c =>
    match (s.cam c).frames with
    | [] => none
    | f :: fs =>
      match s.frameStep n c 0 f with
      | some (s1, some g) => some (s1.onCam c (fun k => { k with frames := g :: fs }))
      | some (s1, none) => some (s1.onCam c (fun k => { k with frames := fs }))
      | none => none

/-- A step on the memory-fed frame in progress. -/
def State.fedStep (s : State) (n : Nat) : Option State :=
  match (s.pipe n).fed with
  | none => none
  | some (c, f) =>
    match s.frameStep n c (match s.camDest c with | some d => d.2 | none => 0) f with
    | some (s1, g) => some (s1.onPipe n (fun p => { p with fed := g.map (fun x => (c, x)) }))
    | none => none

/-- One step of a pipeline (R193): in-line work first, and memory-fed lines fill every gap. -/
def State.frontStep (s : State) (n : Nat) : Option State :=
  match s.inlineStep n with
  | some s1 => some s1
  | none => s.fedStep n

/-- Steps of a pipeline until none can be made. -/
def State.frontLoop : Nat → State → Nat → State
  | 0, s, _ => s
  | k + 1, s, n =>
    match s.frontStep n with
    | some s1 => s1.frontLoop k n
    | none => s

/-- A pipeline goes on: records and outputs leave as credits allow, then its frames (R193). -/
def State.runPipe (s : State) (n : Nat) : State :=
  if s.job.state == .running then (((s.drainRecords n).drainBack n).frontLoop (2 ^ 22) n).drainBack n else s

/-- The pipeline of a camera goes on. -/
def State.runCam (s : State) (c : Nat) : State :=
  match s.camDest c with | some d => s.runPipe d.1 | none => s

/-! ## Packets (R174-R178) -/

/-- A packet discarded as ORPHAN. -/
def State.orphan (s : State) (c : Nat) : State := s.count (rCam c 0x030) 1

/-- Whether a camera's channel takes frames: it has one, and its stream runs. -/
def State.camLive (s : State) (c : Nat) : Bool := (s.camChan c).isSome && s.job.state == .running

/-- Whether inputs are closed to a new frame (orders 3 to 9 of a full load, or a reload's hold). -/
def State.inputsClosed (s : State) : Bool := s.loader.inputsHeld

/-- FRAME_START_PACKET (R175): exposure 0 opens a frame, another exposure opens within one; an exposure still open closes first (R178). -/
def State.frameStart (s : State) (c vc fn header tick : Nat) : State :=
  let s := { s with now := max s.now tick }
  if header = 2 then s.count (rCam c 0x028) 1
  else if s.camLive c && s.learning c then (if s.inputsClosed then s else s.learnStart c vc)
  else if !(s.cam c).configured || decide (16 ≤ vc) then s.orphan c
  else if !s.camLive c then s
  else match (s.cam c).exposureOf vc with
    | none => s.orphan c
    | some e =>
      let s := match (s.cam c).openAt e with
        | some i => s.closeExp c i e (s.camTick c tick) true false
        | none => s
      if e = 0 then
        if s.inputsClosed then
          let s := s.onCam c (fun k => { k with closed := true })
          let s := if s.loader.reloadReady then s.dropFrameOf c else s
          s.runCam c
        else ((s.nudge c).openFrame c fn tick (b2n (header == 1))).runCam c
      else
        let fs := (s.cam c).frames
        match fs.findIdx? (fun f => match f.exps[e]? with | some x => x.phase == 0 | none => false) with
        | none => if (s.cam c).closed then s else s.orphan c
        | some i =>
          let last := fs.length - 1
          let s := (List.range fs.length).foldl (fun s j =>
            if i ≤ j ∧ j < last then s.closeExp c j e (s.camTick c tick) true false else s) s
          (s.onCam c (fun k => { k with frames := k.frames.modify last (fun f => { f with
            ecc := f.ecc + b2n (header == 1)
            exps := f.exps.modify e (fun x => if x.phase = 0 then { x with phase := 1, last := tick } else x) }) })).runCam c

/-- LONG_PACKET (R174, R177): a line of the selected exposure, embedded data, user-defined data, or an orphan; a line outside an open frame is one. -/
def State.longPacket (s : State) (c vc dt header : Nat) (crcOk : Bool) (bs : List Byte) (tick : Nat) : State :=
  let s := { s with now := max s.now tick }
  if header = 2 then s.count (rCam c 0x028) 1
  else if s.camLive c && s.learning c then s.learnLine c vc dt bs
  else
    let k := s.cam c
    if !k.configured || decide (16 ≤ vc) then s.orphan c
    else if isRawType dt then
      match k.exposureOf vc with
      | none => s.orphan c
      | some e =>
        if dt ≠ k.port 1 1 then s.orphan c
        else match k.openAt e with
          | none => s.orphan c
          | some i => (s.takeLine c i e tick bs crcOk (b2n (header == 1))).runCam c
    else if (dt = 0x12 ∨ (0x30 ≤ dt ∧ dt ≤ 0x37)) ∧ vc = k.port 0 1 then
      match k.openAt 0 with
      | none => s.orphan c
      | some i =>
        let s := s.count (rCam c 0x024) (b2n (!crcOk))
        s.onCam c (fun k => { k with frames := k.frames.modify i (fun f => { f with
          crcErr := f.crcErr + b2n (!crcOk), ecc := f.ecc + b2n (header == 1), flagged := f.flagged || !crcOk
          emb := if dt = 0x12 ∧ (k.port 5 1).testBit 0 then (f.emb ++ bs).take 3840 else f.emb
          user := if dt ≠ 0x12 ∧ (k.port 5 1).testBit 1 then f.user ++ bs else f.user
          exps := f.exps.modify 0 (fun x => { x with last := tick }) }) })
    else s.orphan c

/-- FRAME_END_PACKET (R178): the normal close of an exposure. -/
def State.frameEnd (s : State) (c vc header tick : Nat) : State :=
  let s := { s with now := max s.now tick }
  if header = 2 then s.count (rCam c 0x028) 1
  else if s.camLive c && s.learning c then s.learnEnd c vc
  else if !(s.cam c).configured || decide (16 ≤ vc) then s.orphan c
  else match (s.cam c).exposureOf vc with
    | none => s.orphan c
    | some e =>
      match (s.cam c).openAt e with
      | none => if (s.cam c).closed then s else s.orphan c
      | some i =>
        let s := s.onCam c (fun k => { k with frames := k.frames.modify i (fun f => { f with ecc := f.ecc + b2n (header == 1) }) })
        (s.closeExp c i e (s.camTick c tick) false false).runCam c

/-- FRAME_TIMEOUT (R178): FRAME_TIMEOUT_US after its last accepted packet an open exposure closes. -/
def State.frameTimeout (s : State) (c e : Nat) : State :=
  match (s.cam c).openAt e with
  | none => s
  | some i =>
    let last := match (s.cam c).frames[i]? with
      | some f => (match f.exps[e]? with | some x => x.last | none => 0)
      | none => 0
    let t := last + (s.cam c).port 0x1C 4 * 16000
    let s := { s with now := max s.now t }
    (s.closeExp c i e (s.camTick c t) false true).runCam c

/-! ## Memory-fed frames (R193, R194) -/

/-- The lines of a memory-fed frame read back from its ring slot. DESIGN CHOICE (log 37). -/
def State.loadLines (s : State) (c : Nat) (f : Frame) : Frame × State :=
  let ent := s.camEnt c
  let g0 := (setBlock f.sets 0).getD []
  let base := leAt g0 0x28 8 + f.slot * leAt g0 0x30 4
  let lb := lineBytes ent.elemFormat ent.width
  let line (e : Nat) (x : Exposure) (r : List RawLine × State) (y : RawLine × Nat) : List RawLine × State :=
    if y.1.valid = 0 ∧ x.rx ≤ y.2 then (r.1 ++ [padLine ent.elemFormat ent.width ent.padValue true], r.2)
    else
      let d := r.2.virtRead (base + (e * ent.height + y.2) * lb) lb
      (r.1 ++ [{ y.1 with codes := (fitLine ent.elemFormat ent.width ent.padValue d.1 false).codes, poisoned := d.2.1 }], d.2.2)
  let r := f.exps.zipIdx.foldl (fun r x =>
    let ls := x.1.lines.zipIdx.foldl (line x.2 x.1) ([], r.2)
    (r.1 ++ [{ x.1 with lines := ls.1 }], ls.2)) (([] : List Exposure), s)
  ({ f with exps := r.1 }, r.2)

/-- The complete memory-fed frame of a pipeline with the oldest FS_TICK: its camera. -/
def State.oldestFed (s : State) (n : Nat) : Option (Nat × Frame) :=
  ((List.range 16).filterMap (fun c =>
    match s.camDest c with
    | some d => if d.1 = n ∧ d.2 ≠ 0 then ((s.cam c).frames.find? (·.closed)).map (fun f => (c, f)) else none
    | none => none)).foldl (fun a x => match a with
      | none => some x
      | some y => if x.2.fs < y.2.fs then some x else some y) none

/-- MEMORY_FED_FRAME (R193): the oldest waiting frame of the pipeline's rings starts, one at a time; none does during a placement switch (R47). -/
def State.fedFrame (s : State) (n : Nat) : State :=
  if s.job.state != .running || s.health.target.isSome || (s.pipe n).fed.isSome then s
  else match s.oldestFed n with
    | none => s
    | some (c, f) =>
      let s1 := s.onCam c (fun k => { k with frames := k.frames.filter (fun g => !(g.slot == f.slot && g.closed)) })
      let r := s1.loadLines c f
      (r.2.onPipe n (fun p => { p with fed := some (c, r.1) })).runPipe n

end Sys2Proof.Machine
end

