-- ==== Sys2Proof/Machine/Scratchpad.lean ====
section
/-! DEFINITION. Machine/Scratchpad.lean: fill, copy, neighbour writes, credits, debug reads and repair (R124-R133). -/

namespace Sys2Proof.Machine

open Sys2Proof

/-- The lines of a block of rows, in row-major order. -/
def blockLines (first rows lines pitch : Nat) : List Nat :=
  (List.range rows).flatMap (fun r => (List.range lines).map (fun i => first + r * pitch + i))

/-- SPFILL (R124): the pattern in every line, tags by position, POISON and COLLIDED clear. -/
def spFillWork (o : SpFillOps) (h : Holder) (s : State) : State :=
  let pat := BitVec.ofNat 512 (leNat ((List.range 16).flatMap (fun _ => leBytes 4 o.value)))
  let ws := (blockLines o.destLine (o.rowsM1 + 1) o.lines o.destPitch).mapIdx (fun n l =>
    { line := l, mask := fullMask, data := pat, tag := some (n % 16), poison := false, flagged := false,
      collided := false, src := 1 : LineWrite })
  (s.writeLines (coreOf h.queue.unit) (some h) false ws).worked h

/-- A whole line of a core as a write to another line, with its tag and marks (R125). -/
def copyLine (c : Core) (src dest : Nat) : LineWrite :=
  let x := c.line src
  { line := dest, mask := fullMask, data := x.bits, tag := some x.tag.toNat, poison := c.poisoned src,
    flagged := x.flagged, collided := x.collided }

/-- SPCOPY (R125): every source line is read before any destination line is written. -/
def spCopyWork (o : SpCopyOps) (h : Holder) (s : State) : State :=
  let k := coreOf h.queue.unit
  let src := blockLines o.srcLine (o.rowsM1 + 1) o.lines o.srcPitch
  let dst := blockLines o.destLine (o.rowsM1 + 1) o.lines o.destPitch
  let ws := (src.zip dst).map (fun p => { copyLine s.cores[k] p.1 p.2 with src := 2 })
  let mk := s.cores[k].marks src
  (((s.touchLines k src).writeLines k (some h) false ws).noteMarks h.queue mk.1 mk.2).worked h

/-- The core that a channel's DEST names. -/
def Entry.destCore (e : Entry) : Option (Fin 7) :=
  let n := field e.dest 8 8
  if h : n < 6 then some ⟨n, by omega⟩ else none

/-- NWRITE (R127): the lines go to the neighbour with their tags and marks, and one token follows them. It waits for a credit
when an earlier command of the queue still sends on the channel, for pending marks on its source lines (R121), and for a bank group of the neighbour
that admits no access (R114). -/
def State.runNWrite (s : State) (h : Holder) (o : NWriteOps) : State :=
  let m := s.mover h
  if s.behind h o.channel || !(s.chan o.channel).canSend then
    s.setMover h { m with stall := .credit o.channel }
  else
    let k := coreOf h.queue.unit
    let src := blockLines o.srcLine (o.rowsM1 + 1) o.lines o.srcPitch
    let dst := blockLines o.destLine (o.rowsM1 + 1) o.lines o.destPitch
    let c := s.cores[k]
    let shut := match (s.chan o.channel).ent.destCore with | some d => dst.any s.cores[d].shut | none => false
    if shut || src.any (c.pendingLines h.queue).contains then s.setMover h { m with stall := .line } else
    let mk := c.marks src
    let ws := (src.zip dst).map (fun p =>
      { copyLine c p.1 p.2 with flagged := c.flags p.1, collided := false })
    let bytes := src.flatMap (fun l => c.bytes (64 * l) 64)
    let s := s.setMover h { m with stall := .none }
    let s := (s.touchLines k src).onChan o.channel Chan.spend
    let s := match (s.chan o.channel).ent.destCore with
      | some d => s.writeLines d (some h) false ws
      | none => s
    let marks : Marks := ⟨o.marks.testBit 0, o.marks.testBit 1, false, mk.2, mk.1, false⟩
    let s := s.send o.channel marks none s.now bytes bytes (cShedDrop h.queue.unit)
    (s.noteMarks h.queue mk.1 mk.2).worked h

/-- NWRITE: the work of one command. -/
def nWriteWork (o : NWriteOps) (h : Holder) (s : State) : State := s.runNWrite h o

/-- SPCREDIT (R128): COUNT credits set out for the channel's sender. -/
def spCreditWork (o : SpCreditOps) (h : Holder) (s : State) : State := (s.returnCredits o.channel o.count).worked h

/-! ## Debug reads (R133) -/

/-- Whether a debug read may be served now: no stream, a killed stream, or an unlock that grants it (R133, R358). -/
def State.debugAllowed (s : State) : Bool :=
  s.job.state == .noStream || s.job.state == .killed || s.sec.perms.testBit 1

/-- TCn_SP_DBG_CTRL written: LINE is stored; START clears VALID and DENIED and starts a read, or it is refused (R133). -/
def State.debugStart (s : State) (n : Fin 6) (w : Word) : State :=
  let b := blkTc n
  let s := s.setReg (b + 0x340) (w.toNat % 2 ^ 20)
  if !w.getLsbD 31 then s
  else
    let line := w.toNat % 2 ^ 20
    let s := s.setReg (b + 0x344) 0
    let g := groupOf line
    let ok := s.debugAllowed && decide (line < 782336) && s.cores[coreOf (.tc n)].on.getLsbD g
    if ok then s.onCore (coreOf (.tc n)) (fun c => { c with dbgWait := true })
    else (s.setReg (b + 0x344) 2).onCore (coreOf (.tc n)) (fun c => { c with dbgWait := false })

/-- The waiting debug read served once no write holds the line: data, ECC outcome, marks and tag; nothing changes in the line (R133). -/
def State.debugDone (s : State) (n : Fin 6) : State :=
  let k := coreOf (.tc n)
  let b := blkTc n
  let line := s.reg (b + 0x340) % 2 ^ 20
  let c := s.cores[k]
  if !c.dbgWait || c.claims.any (fun x => x.line == line) then s
  else
    let x := c.line line
    let st := 1 + 4 * b2n (decide (0 < x.ces)) + 8 * b2n (decide (0 < x.ues)) + 16 * b2n x.poison + 32 * b2n x.collided +
      256 * x.tag.toNat
    let s := (s.setReg (b + 0x344) st).onCore k (fun c => { c with dbgWait := false })
    (List.range 16).foldl (fun s i => s.setReg (b + 0x380 + 4 * i) (x.bits.toNat >>> (32 * i) % 2 ^ 32)) s

/-! ## Repair (R130, R131) -/

/-- Spare rows left in a bank of a core, out of 24. -/
def Core.sparesLeft (c : Core) (bank : Nat) : Nat := 24 - look 0 c.spareUsed bank

/-- The fewest spare rows left in any bank, and the lowest bank that has so few. -/
def Core.minSpare (c : Core) : Nat × Nat :=
  (List.range 64).foldl (fun a b => if c.sparesLeft b < a.1 then (c.sparesLeft b, b) else a) (25, 0)

/-- TCn_SP_SPARE.WARN (R131). -/
def spareWarn (left hi lo : Nat) : Nat := if left = 0 then 3 else if left ≤ lo then 2 else if left ≤ hi then 1 else 0

/-- A line moved to a spare row of its bank: a correctable upset is gone, an uncorrectable line keeps POISON. The repair of a line that a write has claimed
waits for the end of the claim, as a claim on a line under repair does. Answers whether a spare row was there; without one the line is POISONED and the
core is to be retired (R130, R131). -/
def State.repairLine (s : State) (n : Fin 6) (line : Nat) : Bool × State :=
  let k := coreOf (.tc n)
  let c := s.cores[k]
  if c.sparesLeft (bankIndex line) = 0 then
    (false, s.onCore k (fun c => { c with lines := put Line.zero c.lines line { c.line line with poison := true } }))
  else if c.claims.any (fun x => x.line == line) then
    (true, s.onCore k (fun c => if c.repairs.contains line then c else { c with repairs := c.repairs ++ [line] }))
  else
    let was := spareWarn c.minSpare.1 12 6
    let s := s.onCore k (fun c => c.moveLine line)
    (true, if was < spareWarn s.cores[k].minSpare.1 12 6 then s.irq .spares else s)

end Sys2Proof.Machine
end

