-- ==== Sys2Proof/Machine/Quant.lean ====
section
/-! DEFINITION. Machine/Quant.lean: second-level scales, quantisation, dequantisation, integer rescale and the statistics record
(R104-R111). -/

namespace Sys2Proof.Machine

open Sys2Proof

/-! ## Second-level scales (R104) -/

/-- The largest magnitude among the finite values, +0 without one. -/
def maxFinite (xs : List Val) : Val :=
  xs.foldl (fun m x => if x.isFin && m.lt x.abs then x.abs else m) Val.zero

/-- `round_fp32 (a / (Qmax × 2^15))`, in one rounding. -/
def s2Of (f : Fmt) (a : Val) : Nat := fdiv a (f.qmax.mul (.fin false 1 15))

/-- VQS2. -/
def vqs2Work (o : VecOps) (h : Holder) (s : State) : State :=
  match Fmt.ofCode o.fmtIn, Fmt.ofCode o.fmtOut with
  | some fi, some fq =>
    let c := s.cores[coreOf h.queue.unit]
    let vals (v : Nat) : List Val := (List.range (vectorLen o)).map (fun e => decode fi (vectorElem c o fi.width v e))
    let maxima :=
      if o.func = 0 then (List.range (vectorCount o)).map (fun v => maxFinite (vals v))
      else [maxFinite ((List.range (vectorCount o)).flatMap vals)]
    let cells := maxima.map (fun a => (⟨if a.isZero then 0 else s2Of fq a, 0, 0, 0, 0⟩ : VecCell))
    let poisoned := (c.marks (aLines o fi.width)).1
    let zeros := (maxima.filter (·.isZero)).length
    let s := s.vecOut h (aLines o fi.width) o.dLine 32 [cells]
    if poisoned then s else s.count (coreBlk (coreOf h.queue.unit) + 0x220) zeros
  | _, _ => s.worked h

/-! ## The quantisation descriptor (R104, R105) -/

/-- The quantisation descriptor. -/
structure QDesc where
  scaleOut : Nat
  sideOut : Nat
  indexOut : Nat
  s2Line : Nat
  statOut : Nat
  group : Nat
  sideCap : Nat
  escapes : Bool
  perTensor : Bool
  derive : Bool
  stats : Bool
  escT : Nat
  bad : Bool

/-- The quantisation descriptor read from its 64 bytes; `bad` gathers the rules of R105 but for the scale lines. -/
def parseQuant (bs : List Byte) : QDesc :=
  let g := leAt bs 0x0F 1
  let f := leAt bs 0x12 1
  let t := leAt bs 0x14 4
  let tv := ofFp32 t
  { scaleOut := leAt bs 0 3, sideOut := leAt bs 3 3, indexOut := leAt bs 6 3, s2Line := leAt bs 9 3,
    statOut := leAt bs 0x0C 3, group := g % 4, sideCap := leAt bs 0x10 2, escapes := f.testBit 0,
    perTensor := f.testBit 1, derive := f.testBit 2, stats := f.testBit 3, escT := t,
    bad := decide (4 ≤ g) || decide (16 ≤ f) || g % 4 == 3 || !zeroAt bs 0x13 1 || !zeroAt bs 0x18 40 ||
      (f.testBit 2 && f.testBit 1) || (f.testBit 0 && !(tv.isFin && Val.zero.lt tv)) }

/-- The groups of a vector. -/
def QDesc.groups (d : QDesc) (len : Nat) : Nat := ceilDiv len (groupLen d.group)

/-- Vectors of tile `t`, out of `count`. -/
def tileSize (count t : Nat) : Nat := min 128 (count - 128 * t)

/-- The first scale line of tile `t`. -/
def QDesc.scaleTile (d : QDesc) (len t : Nat) : Nat := d.scaleOut + t * 2 * d.groups len
/-- The first side-index line of tile `t`. -/
def QDesc.indexTile (d : QDesc) (len t : Nat) : Nat := d.indexOut + t * ceilDiv (d.groups len + 1) 16
/-- The first side-list line of tile `t`. -/
def QDesc.sideTile (d : QDesc) (t : Nat) : Nat := d.sideOut + t * d.sideCap

/-- The side list of tile `t` as a reader of it takes it. -/
def QDesc.side (d : QDesc) (len count t : Nat) (isEsc : Nat → Nat → Bool) : SideSpec :=
  ⟨d.sideTile t, d.indexTile len t, 0, d.sideCap, tileSize count t, len, groupLen d.group, isEsc⟩

/-! ## One group (R106) -/

/-- A quantised group: its scale code, element codes, side entries (offset, BF16), and what it counts. -/
structure QGroup where
  code : Nat
  q : List Nat
  side : List (Nat × Nat)
  zeroRange : Nat
  cnan : Nat
  clamped : Nat
  under : Nat
  csat : Nat
  saturated : Nat
  nan : Nat

/-- Whether candidate `i` comes before candidate `j`: non-finite first, then larger magnitude, then lower position. -/
def candBefore (x : Nat → Val) (i j : Nat) : Bool :=
  let a := x i
  let b := x j
  if !a.isFin && b.isFin then true
  else if a.isFin && !b.isFin then false
  else if !a.isFin && !b.isFin then decide (i < j)
  else if b.abs.lt a.abs then true
  else if a.abs.lt b.abs then false
  else decide (i < j)

/-- A candidate placed in order. -/
def candInsert (x : Nat → Val) (i : Nat) : List Nat → List Nat
  | [] => [i]
  | j :: js => if candBefore x i j then i :: j :: js else j :: candInsert x i js

/-- An integer zero group of `n` elements. -/
def QGroup.zeros (n zr cn : Nat) : QGroup := ⟨0, List.replicate n 0, [], zr, cn, 0, 0, 0, 0, 0⟩

/-- One group quantised to a format, with `free` side entries left in its tile (R106). -/
def quantGroup (f : Fmt) (esc : Bool) (escT s2 : Nat) (free n : Nat) (x : Nat → Val) : QGroup :=
  let ks := List.range n
  let sv := ofFp32 s2
  if ks.all (fun k => (x k).isZero) then QGroup.zeros n 1 0
  else if sv.isNan || sv.isInf || !Val.zero.lt sv then QGroup.zeros n 0 1
  else
    let limit := (ofFp32 escT).mul sv
    let cand := if esc then ks.filter (fun k => !(x k).isFin || limit.lt (x k).abs) else []
    let ordered := cand.foldl (fun l k => candInsert x k l) []
    let escd := ordered.take (min 4 free)
    let excess := cand.filter (fun k => !escd.contains k)
    let xc (k : Nat) : Val :=
      if excess.contains k then
        (if (x k).isNan then Val.zero
         else
           let r := ofFp32 (fp32 limit)
           if (x k).neg? then r.negate else r)
      else x k
    let m := maxFinite ((ks.filter (fun k => !escd.contains k)).map xc)
    let t := conv .ue5m3 (ofFp32 (fdiv (ofFp32 (fdiv m sv)) f.qprime))
    let raised := !m.isZero && t.code == 0
    let code := if m.isZero || raised then 1 else t.code
    let w := ofFp32 (fp32 (sv.mul (decode .ue5m3 code)))
    let dead := w.isZero || w.isInf
    let sides := (ks.filter (fun k => escd.contains k)).map (fun k => (k, convDiv .bf16 false (x k) sv))
    let ord := ks.map (fun k =>
      if escd.contains k then (⟨f.escape, false, false⟩ : Conv)
      else if dead then ⟨0, false, false⟩
      else convDiv f esc (xc k) w)
    let sats := (ord.filter (·.sat)).length + (sides.filter (fun p => p.2.sat)).length
    { code := code
      q := ord.map (·.code)
      side := sides.map (fun p => (p.1, p.2.code))
      zeroRange := 0
      cnan := (excess.filter (fun k => (x k).isNan)).length + (ord.filter (·.nan)).length + (sides.filter (fun p => p.2.nan)).length
      clamped := (excess.filter (fun k => !(x k).isNan)).length
      under := b2n raised + b2n dead
      csat := sats + b2n (!m.isZero && t.sat)
      saturated := sats
      nan := if f.hasNan && !dead then (ks.filter (fun k => !escd.contains k && (xc k).isNan)).length else 0 }

/-! ## A whole operand -/

/-- The groups of one tile, group by group and vector by vector in the order of its side list, each taking the side entries
that are left. Answers the groups in that order. -/
def quantTile (f : Fmt) (d : QDesc) (s2 : Nat → Nat) (len first size : Nat) (x : Nat → Nat → Val) : List QGroup :=
  let g := groupLen d.group
  ((List.range (d.groups len)).flatMap (fun gi => (List.range size).map (fun v => (gi, v)))).foldl
    (fun (acc : List QGroup) p =>
      let used := acc.foldl (fun n q => n + q.side.length) 0
      acc ++ [quantGroup f d.escapes d.escT (s2 (first + p.2)) (16 * d.sideCap - used) (min g (len - p.1 * g))
        (fun k => x (first + p.2) (p.1 * g + k))]) []

/-- The group of vector `v` (within its tile) and group index `gi`. -/
def groupAt (gs : List QGroup) (size gi v : Nat) : QGroup := gs.getD (gi * size + v) (QGroup.zeros 0 0 0)

/-- A tile's outputs: scale lines with ordinals as tags, the side list and the side index. -/
def tileOutput (d : QDesc) (len t size : Nat) (gs : List QGroup) (flagged : Bool) : List LineWrite :=
  let groups := d.groups len
  let l := if size ≤ 64 then 1 else 2
  let whole (base n data : Nat) : LineWrite :=
    { line := base + n, mask := fullMask, data := BitVec.ofNat 512 data, tag := some (n % 16), poison := false,
      flagged := flagged, collided := false }
  let scale := (List.range (groups * l)).map (fun n =>
    let gi := n / l
    let lo := 64 * (n % l)
    whole (d.scaleTile len t) n (packCodes 8 ((List.range (min 64 (size - lo))).map (fun i => (groupAt gs size gi (lo + i)).code))))
  if !d.escapes then scale
  else
    let entries := (List.range groups).flatMap (fun gi => (List.range size).flatMap (fun v =>
      ((groupAt gs size gi v).side).map (fun p => p.2 + v * 2 ^ 16 + p.1 * 2 ^ 23 + (gi % 4) * 2 ^ 30)))
    let before (gi : Nat) : Nat :=
      (List.range gi).foldl (fun n g => (List.range size).foldl (fun n v => n + (groupAt gs size g v).side.length) n) 0
    let side := (List.range (ceilDiv entries.length 16)).map (fun n =>
      whole (d.sideTile t) n (packCodes 32 ((entries.drop (16 * n)).take 16)))
    let idx := (List.range (groups + 1)).map before
    let index := (List.range (ceilDiv (groups + 1) 16)).map (fun n =>
      whole (d.indexTile len t) n (packCodes 32 ((idx.drop (16 * n)).take 16)))
    scale ++ side ++ index

/-- The reconstruction of an element (R108): `round (decode q × w)`, `round (v × s2)` for an escape, +0 in a zero group. -/
def dequant (fi fo : Fmt) (s2 scale q : Nat) (side : Option Nat) : Conv :=
  match side with
  | some v => conv fo ((decode .bf16 v).mul (ofFp32 s2))
  | none =>
    if scale = 0 then ⟨0, false, false⟩
    else conv fo ((decode fi q).mul (ofFp32 (fp32 ((ofFp32 s2).mul (decode .ue5m3 scale)))))

/-- A count saturated at 32 bits. -/
def sat32u (n : Nat) : Nat := min n (2 ^ 32 - 1)

/-- The statistics record and the row sums that follow it (R110, R111). `at v gi` is the group of vector `v`. -/
def statRecord (f : Fmt) (d : QDesc) (s2 : Nat → Nat) (len count : Nat) (x : Nat → Nat → Val) (grp : Nat → Nat → QGroup)
    (flagged : Bool) : List LineWrite :=
  let g := groupLen d.group
  let finite (v : Nat) : List Nat := (List.range len).filter (fun e => (x v e).isFin)
  let recon (v e : Nat) : Val :=
    let q := grp v (e / g)
    let sd := (q.side.find? (fun p => p.1 == e % g)).map (·.2)
    ofFp32 (dequant f .fp32 (s2 v) q.code (q.q.getD (e % g) 0) sd).code
  let dOf (v e : Nat) : Nat := fp32 ((x v e).add (recon v e).negate)
  -- a non-finite element is left out; the others keep their lanes
  let rowErr (v : Nat) : Nat := fp32 (twoStageAt false ((finite v).map (fun e => (ofFp32 (fmul (dOf v e) (dOf v e)), e)))).1
  let rowRef (v : Nat) : Nat := fp32 (twoStageAt false ((finite v).map (fun e => (ofFp32 (fp32 ((x v e).mul (x v e))), e)))).1
  let vs := List.range count
  let total (r : Nat → Nat) : Nat := vs.foldl (fun a v => fadd a (r v)) 0
  let groups := vs.flatMap (fun v => (List.range (d.groups len)).map (grp v))
  let sum (p : QGroup → Nat) : Nat := groups.foldl (fun n q => n + p q) 0
  let elems := vs.foldl (fun n v => n + (finite v).length) 0
  let maxErr := vs.foldl (fun m v => (finite v).foldl (fun m e => m.max (ofFp32 (dOf v e)).abs) m) Val.zero
  let words := [sat32u elems, sat32u (count * len - elems), sat32u (sum (·.side.length)), sat32u (sum (·.clamped)),
    sat32u (sum (·.saturated)), sat32u (groups.filter (fun q => q.code == 0)).length, total rowErr, total rowRef,
    fp32 maxErr, sat32u count]
  rowWrites d.statOut 512 (packCodes 32 words) false flagged ++
    rowWrites (d.statOut + 1) (32 * count) (packCodes 32 (vs.map rowErr)) false flagged

/-- What a quantising command works on: vectors, their length and elements in FP32, and how results are placed. -/
structure QuantJob where
  f : Fmt
  count : Nat
  len : Nat
  x : Nat → Nat → Val
  line : Nat
  byCol : Bool
  vecIsCol : Bool
  reads : List Nat

/-- The lines of s2 that a quantising command reads. -/
def QDesc.s2Reads (d : QDesc) (count : Nat) : List Nat := if d.derive then [] else linesOf d.s2Line (if d.perTensor then 32 else 32 * count)

/-- Every line of a quantising command's outputs beside its codes: scale blocks, side lists, side indexes, derived s2, and the statistics record with its row sums. -/
def QDesc.outLines (d : QDesc) (len count : Nat) : List Nat :=
  let run (base n : Nat) : List Nat := (List.range n).map (base + ·)
  (List.range (ceilDiv count 128)).flatMap (fun t =>
    run (d.scaleTile len t) (d.groups len * (if tileSize count t ≤ 64 then 1 else 2)) ++
    (if d.escapes then run (d.sideTile t) d.sideCap ++ run (d.indexTile len t) (ceilDiv (d.groups len + 1) 16) else [])) ++
  (if d.derive then linesOf d.s2Line (32 * count) else []) ++
  (if d.stats then d.statOut :: linesOf (d.statOut + 1) (32 * count) else [])

/-- Lines zeroed with POISON (`mask` all bytes) or given POISON alone (`mask` 0), those that the core has. -/
def State.poisonWrites (s : State) (u : Fin 7) (mask : Nat) (flagged : Bool) (ls : List Nat) : List LineWrite :=
  (ls.filter (fun l => s.inPart u l)).map (fun l =>
    { line := l, mask := mask, data := 0, tag := none, poison := true, flagged := flagged, collided := false })

/-- The results of a quantising command: codes, scale blocks, side lists, s2 and statistics, or POISON (R105-R107, R110). -/
def State.quantise (s : State) (h : Holder) (j : QuantJob) (descLine : Nat) : State :=
  let u := coreOf h.queue.unit
  let b := coreBlk u
  let c := s.cores[u]
  let d := parseQuant (c.bytes (64 * descLine) 64)
  let derived (v : Nat) : Nat :=
    let a := maxFinite ((List.range j.len).map (j.x v))
    if a.isZero then 0 else s2Of j.f a
  let s2 (v : Nat) : Nat :=
    if d.derive then derived v else c.bitsAt d.s2Line (if d.perTensor then 0 else 32 * v) 32
  let s2Lines := d.s2Reads j.count
  let tiles := ceilDiv j.count 128
  let gs := (List.range tiles).map (fun t => quantTile j.f d s2 j.len (128 * t) (tileSize j.count t) j.x)
  let grp (v gi : Nat) : QGroup := groupAt (gs.getD (v / 128) []) (tileSize j.count (v / 128)) gi (v % 128)
  let outs (flagged : Bool) := (List.range tiles).flatMap (fun t => tileOutput d j.len t (tileSize j.count t) (gs.getD t []) flagged)
  let g := groupLen d.group
  let code (v e : Nat) : Nat := (grp v (e / g)).q.getD (e % g) 0
  let rows := storedRows j.byCol (if j.vecIsCol then j.len else j.count) (if j.vecIsCol then j.count else j.len)
    (fun r k => if j.vecIsCol then code k r else code r k)
  let scaleBad := (List.range tiles).any (fun t =>
    (List.range (d.groups j.len * (if tileSize j.count t ≤ 64 then 1 else 2))).any (fun n => !s.inKind u 6 (d.scaleTile j.len t + n)))
  let mk := c.marks (descLine :: (j.reads ++ s2Lines))
  let s := s.touchLines u (descLine :: (j.reads ++ s2Lines))
  let s := s.noteMarks h.queue mk.1 mk.2
  if mk.1 then
    (s.writeLines u (some h) true (storedWrites j.line j.f.width (rows.map (fun cs => cs.map (fun _ => 0))) true mk.2 ++
      s.poisonWrites u fullMask mk.2 (d.outLines j.len j.count))).worked h
  else if d.bad || scaleBad then
    ((s.writeLines u (some h) true ((storedWrites j.line j.f.width rows true mk.2).map (fun w => { w with mask := 0 }) ++
      s.poisonWrites u 0 mk.2 (d.outLines j.len j.count))).count
      (cPoisonedTile h.queue.unit) 1).worked h
  else
    let groups := (List.range j.count).flatMap (fun v => (List.range (d.groups j.len)).map (grp v))
    let sum (p : QGroup → Nat) : Nat := groups.foldl (fun n q => n + p q) 0
    let zeroVecs := if d.derive then
      ((List.range j.count).filter (fun v => (maxFinite ((List.range j.len).map (j.x v))).isZero)).length else 0
    let s := s.writeLines u (some h) true (storedWrites j.line j.f.width rows false mk.2)
    let s := s.writeLines u (some h) true (outs mk.2)
    let s := if d.derive then
      s.writeLines u (some h) true (rowWrites d.s2Line (32 * j.count) (packCodes 32 ((List.range j.count).map derived)) false mk.2)
      else s
    let s := if d.stats then
      s.writeLines u (some h) true (statRecord j.f d s2 j.len j.count j.x grp mk.2) else s
    let s := s.count (b + 0x220) (sum (·.zeroRange) + zeroVecs)
    let s := s.count (b + 0x208) (sum (·.cnan))
    let s := s.count (b + 0x224) (sum (·.clamped))
    let s := s.count (b + 0x228) (sum (·.under))
    let s := s.count (b + 0x204) (sum (·.csat))
    let s := s.count (b + 0x210) (sum (·.nan))
    s.worked h

/-- VQUANT. -/
def vquantWork (o : VecOps) (h : Holder) (s : State) : State :=
  match Fmt.ofCode o.fmtIn, Fmt.ofCode o.fmtOut with
  | some fi, some fq =>
    let c := s.cores[coreOf h.queue.unit]
    s.quantise h
      { f := fq, count := vectorCount o, len := vectorLen o, x := fun v e => decode fi (vectorElem c o fi.width v e),
        line := o.dLine, byCol := vDCol o.vflags, vecIsCol := vACol o.vflags, reads := aLines o fi.width } (o.imm % 2 ^ 24)
  | _, _ => s.worked h

/-- VEPILOGUE: act(a × b + c), converted to FMT_OUT, or group-scaled under FUNC bit 7 (R91, R107). -/
def vepilogueWork (o : VecOps) (h : Holder) (s : State) : State :=
  match Fmt.ofCode o.fmtIn, Fmt.ofCode o.fmtOut with
  | some fi, some fo =>
    let c := s.cores[coreOf h.queue.unit]
    let reads := aLines o fi.width ++ epiLines o
    if o.func.testBit 7 then
      s.quantise h
        { f := fo, count := o.rowsM1 + 1, len := o.colsM1 + 1, x := fun v e => epiValue c o fi v e,
          line := o.dLine, byCol := vDCol o.vflags, vecIsCol := false, reads := reads } (o.imm % 2 ^ 24)
    else
      s.vecOut h reads o.dLine fo.width (storedRows (vDCol o.vflags) (o.rowsM1 + 1) (o.colsM1 + 1)
        (fun r k => vecCell fo (epiValue c o fi r k) 0))
  | _, _ => s.worked h

/-! ## Dequantisation (R108) -/

/-- The lines of a stored row of `w`-bit elements that hold an element of a bad tile. -/
def badLines (line w : Nat) (bs : List Bool) : List Nat :=
  ((bs.zipIdx.filter (·.1)).flatMap (fun x => [line + w * x.2 / 512, line + (w * x.2 + w - 1) / 512])).eraseDups

/-- Whether the element of a code is an escape that a side list holds. -/
def vdqSide (c : Core) (o : VecOps) (fi : Fmt) (d : QDesc) (t : Nat) : SideSpec :=
  d.side (vectorLen o) (vectorCount o) t (fun v e => d.escapes && vectorElem c o fi.width (128 * t + v) e == fi.escape)

/-- The lines that VDEQUANT reads. -/
def vdqReads (c : Core) (o : VecOps) (fi : Fmt) : List Nat :=
  let d := parseQuant (c.bytes (64 * (o.imm % 2 ^ 24)) 64)
  let count := vectorCount o
  let len := vectorLen o
  let ts := List.range (ceilDiv count 128)
  o.imm % 2 ^ 24 :: (aLines o fi.width ++
    ts.flatMap (fun t => (scaleLines (d.scaleTile len t) 0 (tileSize count t) (d.groups len)).map (·.1)) ++
    (if d.escapes then ts.flatMap (fun t => c.sideLinesRead (vdqSide c o fi d t)) else []) ++ linesOf d.s2Line (if d.perTensor then 32 else 32 * count))

/-- VDEQUANT. -/
def vdequantWork (o : VecOps) (h : Holder) (s : State) : State :=
  match Fmt.ofCode o.fmtIn, Fmt.ofCode o.fmtOut with
  | some fi, some fo =>
    let u := coreOf h.queue.unit
    let c := s.cores[u]
    let d := parseQuant (c.bytes (64 * (o.imm % 2 ^ 24)) 64)
    let count := vectorCount o
    let len := vectorLen o
    let g := groupLen d.group
    let tiles := ceilDiv count 128
    let code (v e : Nat) : Nat := vectorElem c o fi.width v e
    let side (t : Nat) : SideSpec := vdqSide c o fi d t
    let tileBad (t : Nat) : Bool := d.escapes && !(List.range (d.groups len)).all (fun gi => c.sideOk (side t) gi)
    let s2 (v : Nat) : Nat := c.bitsAt d.s2Line (if d.perTensor then 0 else 32 * v) 32
    let scale (v e : Nat) : Nat := c.scaleCode (d.scaleTile len (v / 128)) 0 (tileSize count (v / 128)) (v % 128) (e / g)
    let cell (v e : Nat) : Conv × Val :=
      if tileBad (v / 128) then (⟨0, false, false⟩, Val.zero)
      else
        let sv := if d.escapes && code v e == fi.escape then c.sideValue (side (v / 128)) (v % 128) e else none
        match sv with
        | some x => let y := x.mul (ofFp32 (s2 v)); (if scale v e = 0 then (⟨0, false, false⟩, Val.zero) else (conv fo y, y))
        | none =>
          let y := (decode fi (code v e)).mul (ofFp32 (fp32 ((ofFp32 (s2 v)).mul (decode .ue5m3 (scale v e)))))
          if scale v e = 0 then (⟨0, false, false⟩, Val.zero) else (conv fo y, y)
    let at2 (r k : Nat) : Conv × Val := if vACol o.vflags then cell k r else cell r k
    let vec (r k : Nat) : Nat := if vACol o.vflags then k else r
    let rows := storedRows (vDCol o.vflags) (o.rowsM1 + 1) (o.colsM1 + 1)
      (fun r k => let x := at2 r k; (⟨x.1.code, b2n x.1.sat, b2n x.1.nan, b2n (x.2.isNan && fo.hasNan), 0⟩ : VecCell))
    let badRows := storedRows (vDCol o.vflags) (o.rowsM1 + 1) (o.colsM1 + 1) (fun r k => tileBad (vec r k / 128))
    let reads := vdqReads c o fi
    if d.bad then
      let mk := c.marks reads
      let ws := (storedWrites o.dLine fo.width (rows.map (fun cs => cs.map (·.code))) true mk.2).map (fun w => { w with mask := 0 })
      (((s.touchLines u reads).writeLines u (some h) true ws).count (cPoisonedTile h.queue.unit) 1).worked h
    else
      let poisonRows := (badRows.mapIdx (fun n bs => badLines (o.dLine + n * vecPitch bs.length fo.width) fo.width bs)).flatten.map (fun l =>
        ({ line := l, mask := 0, data := 0, tag := none, poison := true, flagged := false, collided := false } : LineWrite))
      let bads := ((List.range tiles).filter tileBad).length
      let s := s.vecOut h reads o.dLine fo.width rows
      if (c.marks reads).1 then s
      else (s.writeLines u (some h) true poisonRows).count (cScaleSkew h.queue.unit) bads
  | _, _ => s.worked h

/-! ## Integer rescale (R109) -/

/-- One element rescaled: the code and how many times CONV_SAT counts. -/
def rescaleCode (f : Fmt) (narrow : Bool) (x m sh : Int) : Nat × Nat :=
  let m' := if m < 0 then 0 else m
  let s' := if sh < -31 then -31 else if 32 < sh then 32 else sh
  let p := x * m'
  let n := (31 + s').toNat
  let a : Nat := if n = 0 then p.natAbs else (p.natAbs + 2 ^ (n - 1)) / 2 ^ n
  let y : Int := if p < 0 then -(a : Int) else a
  let r := convE f narrow (Val.ofInt y)
  (r.code, b2n r.sat + b2n (decide (m < 0)) + b2n (decide (s' ≠ sh)))

/-- VRESCALE. -/
def vrescaleWork (o : VecOps) (h : Holder) (s : State) : State :=
  match Fmt.ofCode o.fmtOut with
  | some fo =>
    let c := s.cores[coreOf h.queue.unit]
    let cell (r k : Nat) : VecCell :=
      let x := rescaleCode fo (o.func.testBit 0) (signed 32 (aElem c o 32 r k)) (signed 32 (bElem c o r k)) (signed 32 (cElem c o r k))
      ⟨x.1, x.2, 0, 0, 0⟩
    s.vecOut h (aLines o 32 ++ bLinesOf o ++ cLinesOf o) o.dLine fo.width
      (storedRows (vDCol o.vflags) (o.rowsM1 + 1) (o.colsM1 + 1) cell)
  | none => s.worked h

end Sys2Proof.Machine
end

