-- ==== Sys2Proof/Machine/Window.lean ====
section
/-! DEFINITION. Machine/Window.lean: convolution, pooling, argmax and the Pewter window layer (R152-R172). -/

namespace Sys2Proof.Machine

open Sys2Proof

/-! ## The window descriptor (R153) -/

/-- The window descriptor. -/
structure WDesc where
  inLine : Nat
  inRowPitch : Nat
  h : Nat
  w : Nat
  pixPitch : Nat
  kh : Nat
  kw : Nat
  sy : Nat
  sx : Nat
  dy : Nat
  dx : Nat
  ey : Nat
  ex : Nat
  padT : Nat
  padB : Nat
  padL : Nat
  padR : Nat
  padValue : Nat
  fmtA : Nat
  padMode : Nat
  aMode : Nat
  bMode : Nat
  cg : Nat
  cog : Nat
  wTap : Nat
  bPitch : Nat
  mapLine : Nat
  mapRowPitch : Nat
  mapPixPitch : Nat
  dwPos : Nat
  reserved : Bool

/-- The window descriptor read from its 64 bytes; counts are stored minus one. -/
def parseWindow (bs : List Byte) : WDesc :=
  let f := leAt bs 0x21 1
  { inLine := leAt bs 0 3, inRowPitch := leAt bs 3 3, h := leAt bs 6 2 + 1, w := leAt bs 8 2 + 1,
    pixPitch := leAt bs 0x0A 2, kh := leAt bs 0x0C 1 + 1, kw := leAt bs 0x0D 1 + 1, sy := leAt bs 0x0E 1,
    sx := leAt bs 0x0F 1, dy := leAt bs 0x10 1, dx := leAt bs 0x11 1, ey := leAt bs 0x12 1, ex := leAt bs 0x13 1,
    padT := leAt bs 0x14 2, padB := leAt bs 0x16 2, padL := leAt bs 0x18 2, padR := leAt bs 0x1A 2,
    padValue := leAt bs 0x1C 4, fmtA := leAt bs 0x20 1, padMode := field f 0 2, aMode := field f 2 2, bMode := field f 4 2,
    cg := leAt bs 0x22 2 + 1, cog := leAt bs 0x24 2 + 1, wTap := leAt bs 0x26 2, bPitch := leAt bs 0x28 2,
    mapLine := leAt bs 0x2A 3, mapRowPitch := leAt bs 0x2D 3, mapPixPitch := leAt bs 0x30 2, dwPos := leAt bs 0x32 2 + 1,
    reserved := decide (64 ≤ f) || !zeroAt bs 0x34 12 }

/-- The output size along an axis (R154). -/
def outSize (n e lo hi k d s : Nat) : Int :=
  (((n : Int) - 1) * e + 1 + lo + hi - (d : Int) * ((k : Int) - 1) - 1) / (s : Int) + 1

/-- OH. -/
def WDesc.oh (d : WDesc) : Int := outSize d.h d.ey d.padT d.padB d.kh d.dy d.sy
/-- OW. -/
def WDesc.ow (d : WDesc) : Int := outSize d.w d.ex d.padL d.padR d.kw d.dx d.sx
/-- Output positions. -/
def WDesc.positions (d : WDesc) : Nat := d.oh.toNat * d.ow.toNat
/-- Taps. -/
def WDesc.taps (d : WDesc) : Nat := d.kh * d.kw

/-- What an axis reads at a dilated index (R155). -/
inductive AxisSrc where
  | stored (y : Nat)
  | zero
  | pad
  deriving DecidableEq, Repr

/-- The source at dilated index `y` of an axis of extent `n`, input dilation `e`. -/
def axisSrc (y : Int) (n e mode : Nat) : AxisSrc :=
  let n' : Int := ((n : Int) - 1) * e + 1
  if 0 ≤ y ∧ y < n' then (if y % (e : Int) = 0 then .stored (y / (e : Int)).toNat else .zero)
  else if mode < 2 then .pad
  else if mode = 2 then .stored (if y < 0 then 0 else n - 1)
  else .stored (foldIdx y n)

/-- The dilated vertical index of output row `oy` and filter row `ky`. -/
def WDesc.yAt (d : WDesc) (oy ky : Nat) : Int := (oy * d.sy + ky * d.dy : Nat) - (d.padT : Int)
/-- The dilated horizontal index. -/
def WDesc.xAt (d : WDesc) (ox kx : Nat) : Int := (ox * d.sx + kx * d.dx : Nat) - (d.padL : Int)

/-- An element of a window: a stored pixel, an inserted zero or a pad element (R155). -/
inductive WinSrc where
  | stored (y x : Nat)
  | zero
  | pad
  deriving DecidableEq, Repr

/-- What tap `t` of output position `p` reads. -/
def WDesc.src (d : WDesc) (p t : Nat) : WinSrc :=
  let ow := d.ow.toNat
  match axisSrc (d.yAt (p / ow) (t / d.kw)) d.h d.ey d.padMode, axisSrc (d.xAt (p % ow) (t % d.kw)) d.w d.ex d.padMode with
  | .pad, _ => .pad
  | _, .pad => .pad
  | .stored y, .stored x => .stored y x
  | _, _ => .zero

/-- Whether a tap lies in range on both axes (R169, FUNC 2). -/
def WDesc.inRange (d : WDesc) (p t : Nat) : Bool :=
  let ow := d.ow.toNat
  let y := d.yAt (p / ow) (t / d.kw)
  let x := d.xAt (p % ow) (t % d.kw)
  decide (0 ≤ y ∧ y < ((d.h : Int) - 1) * d.ey + 1 ∧ 0 ≤ x ∧ x < ((d.w : Int) - 1) * d.ex + 1)

/-- The bit offset of an element of a map from line 0 (R152). -/
def mapBit (base rowPitch pixPitch w y x c : Nat) : Nat := 512 * (base + y * rowPitch) + w * (x * pixPitch + c)

/-- A pad element's code. -/
def WDesc.padCode (d : WDesc) (w : Nat) : Nat := if d.padMode = 1 then d.padValue % 2 ^ w else 0

/-- The element code that tap `t` of position `p` reads in channel `c`. -/
def WDesc.input (d : WDesc) (k : Core) (w p t c : Nat) : Nat :=
  match d.src p t with
  | .stored y x => k.bitsAt 0 (mapBit d.inLine d.inRowPitch d.pixPitch w y x c) w
  | .zero => 0
  | .pad => d.padCode w

/-- The lines that `n` channels of a pixel touch. -/
def pixelLines (bit w n : Nat) : List Nat := (List.range ((bit % 512 + w * n + 511) / 512)).map (bit / 512 + ·)

/-- The input lines of tap `t` of position `p` over `n` channels from `c`. -/
def WDesc.inputLines (d : WDesc) (w p t c n : Nat) : List Nat :=
  match d.src p t with
  | .stored y x => pixelLines (mapBit d.inLine d.inRowPitch d.pixPitch w y x c) w n
  | _ => []

/-- The rules of R157 that do not depend on the command. -/
def WDesc.badCommon (d : WDesc) : Bool :=
  d.reserved || d.sy == 0 || d.sx == 0 || d.dy == 0 || d.dx == 0 || d.ey == 0 || d.ex == 0 ||
  (decide (2 ≤ d.padMode) && (decide (1 < d.ey) || decide (1 < d.ex))) || d.aMode == 3 || d.bMode == 3

/-- Whether no output is active (R156). -/
def WDesc.empty (d : WDesc) (p0 : Nat) : Bool := decide (d.oh < 1) || decide (d.ow < 1) || decide (d.positions ≤ p0)

def cWdescBad (blk : Nat) : Nat := blk + 0x230
def cEmptyOutput (blk : Nat) : Nat := blk + 0x234

/-! ## WCONV and WCONV_DIAG (R158-R163) -/

/-- Whether a pair of operand formats may meet in the array (R84). -/
def pairOk (fa fb : Fmt) : Bool := fa.isArray && fb.isArray && fa.isHalf == fb.isHalf

/-- What a convolution command reads, from its descriptor and operands. -/
structure ConvPlan where
  d : WDesc
  fa : Fmt
  fb : Fmt
  k : Nat
  rows : Nat
  a : Nat → Nat → Nat → Nat
  b : Nat → Nat → Nat
  live : Nat → Bool
  reads : List Nat
  bad : Bool

/-- Whether WCONV_DIAG runs with shift reuse (R163): unit steps along x, and all active rows in one output row. -/
def WDesc.shiftReuse (d : WDesc) (p0 rows : Nat) : Bool :=
  d.sx == 1 && d.dx == 1 && d.ex == 1 && d.aMode == 0 && p0 / d.ow.toNat == (p0 + rows - 1) / d.ow.toNat

/-- Handshakes of `k` reduction steps of WCONV_DIAG (R163). -/
def diagSteps (fa fb : Fmt) (reuse : Bool) (k : Nat) : Nat :=
  k * ((if reuse then 1 else 4) * (if max fa.width fb.width ≤ 8 then 1 else 4))

/-- The operands of a convolution (R159, R162). -/
def convPlan (diag : Bool) (o : WConvOps) (c : Core) (d : WDesc) (fa fb : Fmt) : ConvPlan :=
  let m := o.mM1 + 1
  let n := o.nM1 + 1
  let cg := d.cg
  let t0 := o.ky0 * d.kw
  let tapsHere := (o.kyCntM1 + 1) * d.kw
  let byTap := d.aMode == 1
  let k := if byTap then d.dwPos else tapsHere * cg
  let rows := if byTap then min m (tapsHere * cg) else min m (d.positions - o.p0)
  let chan (j : Nat) : Nat := if diag then (o.cBase + j) / d.cog * cg else o.cBase
  let tapOf (i kk : Nat) : Nat := if byTap then t0 + i / cg else t0 + kk / cg
  let chOf (i kk : Nat) : Nat := if byTap then i % cg else kk % cg
  let posOf (i kk : Nat) : Nat := if byTap then o.p0 + kk else o.p0 + i
  let live (kk : Nat) : Bool := !byTap || decide (o.p0 + kk < d.positions)
  let ow := d.ow.toNat
  let bBit (kk j : Nat) : Nat :=
    if d.bMode = 0 then 512 * (o.bLine + j * d.bPitch) + fb.width * (tapOf 0 kk * d.wTap + chOf 0 kk)
    else if d.bMode = 1 then
      512 * (o.bLine + chOf 0 kk * d.bPitch) + fb.width * ((d.taps - 1 - tapOf 0 kk) * d.wTap + j)
    else
      let p := o.p0 + kk
      mapBit d.mapLine d.mapRowPitch d.mapPixPitch fb.width (p / ow) (p % ow) j
  let ks := (List.range k).filter live
  let aReads := (List.range rows).flatMap (fun i => ks.flatMap (fun kk =>
    if diag then (List.range n).flatMap (fun j => d.inputLines fa.width (posOf i kk) (tapOf i kk) (chan j + chOf i kk) 1)
    else d.inputLines fa.width (posOf i kk) (tapOf i kk) (chan 0 + chOf i kk) 1))
  let bReads := ks.flatMap (fun kk => (List.range n).flatMap (fun j => pixelLines (bBit kk j) fb.width 1))
  { d := d, fa := fa, fb := fb, k := k, rows := rows
    a := fun i j kk => d.input c fa.width (posOf i kk) (tapOf i kk) (chan j + chOf i kk)
    b := fun kk j => c.bitsAt 0 (bBit kk j) fb.width
    live := live
    reads := aReads ++ bReads
    bad := d.badCommon || !pairOk fa fb || (o.mode.testBit 8 && !fa.isInt) || decide (d.pixPitch < o.cBase + cg) || decide (65536 < k) ||
      decide (d.kh < o.ky0 + o.kyCntM1 + 1) ||
      !((d.aMode == 0 && (d.bMode == 0 || (d.bMode == 1 && !diag))) || (d.aMode == 1 && d.bMode == 2 && !diag)) }

/-- The second-level scale lines that a convolution reads. -/
def convS2Lines (s2 : Bool) (sd : ScaleDesc) (n : Nat) : List Nat :=
  if s2 then linesOf sd.aS2 32 ++ linesOf sd.bS2 (if sd.flags.testBit 1 then 32 else 32 * n) else []

/-- The side list of B as a convolution reads it. -/
def convSide (o : WConvOps) (p : ConvPlan) (sd : ScaleDesc) : SideSpec :=
  ⟨sd.bSide, sd.bIndex, sd.bBase, sd.bSideLines, o.nM1 + 1, p.k, groupLen (field o.mode 3 2), fun j k => o.mode.testBit 7 && p.b k j == p.fb.escape⟩

/-- The lines that a convolution with a valid descriptor reads. -/
def convReads (c : Core) (o : WConvOps) (p : ConvPlan) : List Nat :=
  let sd := parseScale (c.bytes (64 * o.scaleLine) 64)
  let n := o.nM1 + 1
  o.wdescLine :: p.reads ++
    (if o.mode.testBit 6 || o.mode.testBit 7 || o.mode.testBit 9 then
      o.scaleLine :: (c.scaleReads (o.mode.testBit 6) (o.mode.testBit 7) sd.bScale (convSide o p sd) ++ convS2Lines (o.mode.testBit 9) sd n)
     else []) ++
    (if o.mode.testBit 0 then tileLines o.accLine p.rows n else [])

/-- WCONV and, with `diag`, WCONV_DIAG: the work of one command. -/
def convWork (diag : Bool) (o : WConvOps) (h : Holder) (s : State) : State :=
  let u := coreOf h.queue.unit
  let c := s.cores[u]
  let d := parseWindow (c.bytes (64 * o.wdescLine) 64)
  let m := o.mM1 + 1
  let n := o.nM1 + 1
  let accumulate := o.mode.testBit 0
  let accInt := o.mode.testBit 8
  let badRun (fl : Bool) : TileRun :=
    { tile := o.accLine, m := m, n := n, accumulate := accumulate, poisoned := false, flagged := fl, skew := false, bad := true,
      steps := 0, float := !accInt }
  let fail : State := (s.count (cWdescBad (coreBlk u)) 1).drain h (badRun false) (fun _ _ => 0) 0
  match Fmt.ofCode d.fmtA, Fmt.ofCode o.fmtB with
  | some fa, some fb =>
    let p := convPlan diag o c d fa fb
    if p.bad || !p.reads.all (fun l => s.inPart u l) then fail
    else if d.empty o.p0 then (s.count (cEmptyOutput (coreBlk u)) 1).worked h
    else
      let g := groupLen (field o.mode 3 2)
      let scB := o.mode.testBit 6
      let side := convSide o p (parseScale (c.bytes (64 * o.scaleLine) 64))
      let esc := o.mode.testBit 7
      let s2 := o.mode.testBit 9
      let useDesc := scB || esc || s2
      let sd := parseScale (c.bytes (64 * o.scaleLine) 64)
      let cb := s.checkOperand u scB esc sd.bScale side
      let reads := convReads c o p
      let mk := c.marks reads
      let t : ArrayJob :=
        { m := p.rows, n := n, k := p.k, g := g, fa := fa, fb := fb, accInt := accInt, a := p.a, b := p.b, live := p.live,
          rowScale := fun _ _ => none,
          colScale := fun j g => if scB then some (c.scaleCode sd.bScale sd.bBase n j g) else none,
          sideA := fun _ _ => none,
          sideB := fun j k => if esc then c.sideValue side j k else none }
      let start (i j : Nat) : Nat := if accumulate then c.acc o.accLine i j else 0
      let s2b (j : Nat) : Nat := c.bitsAt sd.bS2 (if sd.flags.testBit 1 then 0 else 32 * j) 32
      let v (i j : Nat) : Nat :=
        let x := (t.cell i j (start i j)).1
        if s2 then s2Drain x (c.bitsAt sd.aS2 0 32) (s2b j) else x
      let skew := useDesc && (cb.skew || sd.reserved || decide (4 ≤ sd.flags) || (s2 && !sd.flags.testBit 0))
      (s.touchLines u reads).drain h
        { tile := o.accLine, m := p.rows, n := n, accumulate := accumulate, poisoned := mk.1, flagged := mk.2, skew := skew,
          bad := false, steps := if diag then diagSteps fa fb (d.shiftReuse o.p0 p.rows) p.k else arraySteps fa fb p.k, float := !accInt } v (t.sats start)
  | _, _ => fail

/-- WCONV (R158-R161). -/
def wconvWork (o : WConvOps) (h : Holder) (s : State) : State := convWork false o h s

/-- WCONV_DIAG (R162, R163). -/
def wconvDiagWork (o : WConvOps) (h : Holder) (s : State) : State := convWork true o h s

/-! ## Writes at bit offsets -/

/-- A run of bits placed in a table from lines to masks and bits. -/
def placeBits (m : Table (Nat × Nat)) (bit w x : Nat) : Table (Nat × Nat) :=
  let l := bit / 512
  let o := bit % 512
  let n := min w (512 - o)
  let add (m : Table (Nat × Nat)) (l o n x : Nat) : Table (Nat × Nat) :=
    let e := look (0, 0) m l
    put (0, 0) m l (setField e.1 o n (2 ^ n - 1), setField e.2 o n x)
  let m1 := add m l o n x
  if n < w then add m1 (l + 1) 0 (w - n) (x >>> n) else m1

/-- The bits below the lowest set bit of a line's mask. -/
def below (mask : Nat) : Nat := (mask &&& (2 ^ 512 - mask)) - 1

/-- The whole-line writes that elements at bit offsets make (R378): what follows a row's last element is zero to the end of the line; elements of the line
that come before the command's first keep their values. DEDUCED (log 111). -/
def bitWrites (c : Core) (m : Table (Nat × Nat)) (poison flagged : Bool) : List LineWrite :=
  m.map (fun e =>
    { line := e.1, mask := fullMask, data := ((c.line e.1).bits &&& BitVec.ofNat 512 (below e.2.1)) ||| BitVec.ofNat 512 e.2.2,
      tag := none, poison := poison, flagged := flagged, collided := false })

/-- A map's results written, or zero lines with POISON when an input is POISONED (R379). -/
def State.mapOut (s : State) (h : Holder) (reads : List Nat) (elems : List (Nat × VecCell)) (w : Nat) : State :=
  let u := coreOf h.queue.unit
  let b := coreBlk u
  let c := s.cores[u]
  let mk := c.marks reads
  let s := (s.touchLines u reads).noteMarks h.queue mk.1 mk.2
  let m := elems.foldl (fun m e => placeBits m e.1 w e.2.code) []
  if mk.1 then
    (s.writeLines u (some h) true (m.map (fun e =>
      { line := e.1, mask := fullMask, data := 0, tag := none, poison := true, flagged := mk.2, collided := false : LineWrite }))).worked h
  else
    let sum (f : VecCell → Nat) : Nat := elems.foldl (fun n e => n + f e.2) 0
    let s := s.writeLines u (some h) true (bitWrites c m false mk.2)
    let s := s.count (b + 0x204) (sum (·.sat))
    let s := s.count (b + 0x208) (sum (·.cnan))
    let s := s.count (b + 0x210) (sum (·.nan))
    s.worked h

/-- A vector window command with an invalid descriptor: it writes nothing, its output lines carry POISONED, WDESC_BAD counts (R157). -/
def State.mapFail (s : State) (h : Holder) (bits : List Nat) (w : Nat) : State :=
  let u := coreOf h.queue.unit
  let m := bits.foldl (fun m b => placeBits m b w 0) ([] : Table (Nat × Nat))
  ((s.writeLines u (some h) true ((m.filter (fun e => s.inPart u e.1)).map (fun e =>
    { line := e.1, mask := 0, data := 0, tag := none, poison := true, flagged := false, collided := false : LineWrite }))).count
    (cWdescBad (coreBlk u)) 1).worked h

/-! ## Pooling (R168-R170) -/

/-- The pooled value of one output and channel (R169). -/
def poolValue (func : Nat) (d : WDesc) (fa : Fmt) (c : Core) (p ch : Nat) : Val :=
  let vals := (List.range d.taps).map (fun t => decode fa (d.input c fa.width p t ch))
  if func = 0 then
    match vals with
    | [] => Val.zero
    | v :: vs => vs.foldl Val.max v
  else
    let sum := vals.foldl (fun a v => round32 (a.add v)) Val.zero
    if func = 3 then sum
    else
      let n := if func = 1 then d.taps else ((List.range d.taps).filter (fun t => d.inRange p t)).length
      ofFp32 (fdiv sum (Val.ofInt n))

/-- Whether a pooling command's descriptor breaks a rule of R157 or R168; an undefined FMT_A does. -/
def WDesc.badPool (d : WDesc) (o : VecOps) : Bool :=
  d.badCommon || d.aMode != 0 || d.bMode != 0 || o.fmtIn != d.fmtA || decide (d.pixPitch < d.cg) ||
  (match Fmt.ofCode d.fmtA with | some f => !(f.isArray || f == .fp32) | none => true)

/-- The positions of VPOOL, and the input pixels of VPOOL_BWD, that are active. -/
def poolPositions (o : VecOps) (d : WDesc) : List Nat := (List.range (o.rowsM1 + 1)).map (o.bLine + ·) |>.filter (fun p => decide (p < d.positions))
def poolPixels (o : VecOps) (d : WDesc) : List Nat := (List.range (o.rowsM1 + 1)).map (o.bLine + ·) |>.filter (fun q => decide (q < d.h * d.w))

/-- The map lines that VPOOL reads, for elements of `w` bits. -/
def poolReads (o : VecOps) (d : WDesc) (w : Nat) : List Nat :=
  (poolPositions o d).flatMap (fun p => (List.range d.taps).flatMap (fun t => d.inputLines w p t 0 (o.colsM1 + 1)))

/-- The lines of dY, and of the input under max, that VPOOL_BWD reads. -/
def poolBwdReads (o : VecOps) (d : WDesc) (w : Nat) : List Nat :=
  let qs := poolPixels o d
  let ow := d.ow.toNat
  let n := o.colsM1 + 1
  let ps := (List.range d.positions).filter (fun p => (List.range d.taps).any (fun t =>
    match d.src p t with | .stored y x => qs.contains (y * d.w + x) | _ => false))
  ps.flatMap (fun p =>
    pixelLines (mapBit d.mapLine d.mapRowPitch d.mapPixPitch 32 (p / ow) (p % ow) 0) 32 n ++
    (if o.func = 0 then (List.range d.taps).flatMap (fun t => d.inputLines w p t 0 n) else []))

/-- The window descriptor of a pooling command. -/
def poolDesc (c : Core) (o : VecOps) : WDesc := parseWindow (c.bytes (64 * (o.imm % 2 ^ 24)) 64)

/-- VPOOL (R168, R169). -/
def vpoolWork (o : VecOps) (h : Holder) (s : State) : State :=
  let u := coreOf h.queue.unit
  let c := s.cores[u]
  let d := poolDesc c o
  let n := o.colsM1 + 1
  match Fmt.ofCode o.fmtOut with
  | some fo =>
    let fa := (Fmt.ofCode d.fmtA).getD .int8
    let ps := poolPositions o d
    let ow := d.ow.toNat
    let outBit (p ch : Nat) : Nat := mapBit o.dLine d.mapRowPitch d.mapPixPitch fo.width (p / ow) (p % ow) ch
    let reads := poolReads o d fa.width
    let outs := ps.flatMap (fun p => pixelLines (outBit p 0) fo.width n)
    if d.badPool o || !(reads ++ outs).all (fun l => s.inPart u l) then s.mapFail h (ps.flatMap (fun p => (List.range n).map (outBit p))) fo.width
    else if d.empty o.bLine then (s.count (cEmptyOutput (coreBlk u)) 1).worked h
    else
      s.mapOut h (o.imm % 2 ^ 24 :: reads)
        (ps.flatMap (fun p => (List.range n).map (fun ch => (outBit p ch, vecCell fo (poolValue o.func d fa c p ch) 0)))) fo.width
  | none => s.mapFail h [] 8

/-- Whether `b` is the larger in the order of VMAX, where +0 is over −0. -/
def belowMax (a b : Val) : Bool := a.lt b || (a.isZero && b.isZero && a.neg? && !b.neg?)

/-- The winning tap of a window under max: the lowest that holds a NaN, else the lowest that holds the maximum (R170). -/
def winningTap (d : WDesc) (fa : Fmt) (c : Core) (p ch : Nat) : Nat :=
  let v (t : Nat) : Val := decode fa (d.input c fa.width p t ch)
  let ts := List.range d.taps
  match ts.find? (fun t => (v t).isNan) with
  | some t => t
  | none => ts.foldl (fun best t => if belowMax (v best) (v t) then t else best) 0

/-- The gradient of one input pixel and channel (R170). -/
def poolGrad (func : Nat) (d : WDesc) (fa : Fmt) (c : Core) (y x ch : Nat) : Val :=
  let ow := d.ow.toNat
  (List.range d.positions).foldl (fun acc p =>
    let dY := ofFp32 (c.bitsAt 0 (mapBit d.mapLine d.mapRowPitch d.mapPixPitch 32 (p / ow) (p % ow) ch) 32)
    let hits := (List.range d.taps).filter (fun t => d.src p t == .stored y x)
    if hits.isEmpty then acc
    else if func = 0 then (if hits.contains (winningTap d fa c p ch) then round32 (acc.add dY) else acc)
    else
      let n := if func = 1 then d.taps else ((List.range d.taps).filter (fun t => d.inRange p t)).length
      hits.foldl (fun acc _ => round32 (acc.add (ofFp32 (fdiv dY (Val.ofInt n))))) acc) Val.zero

/-- VPOOL_BWD (R168, R170). -/
def vpoolBwdWork (o : VecOps) (h : Holder) (s : State) : State :=
  let u := coreOf h.queue.unit
  let c := s.cores[u]
  let d := poolDesc c o
  let n := o.colsM1 + 1
  match Fmt.ofCode o.fmtOut with
  | some fo =>
    let fa := (Fmt.ofCode d.fmtA).getD .int8
    let qs := poolPixels o d
    let outBit (q ch : Nat) : Nat := mapBit o.dLine d.inRowPitch d.pixPitch fo.width (q / d.w) (q % d.w) ch
    let reads := poolBwdReads o d fa.width
    let outs := qs.flatMap (fun q => pixelLines (outBit q 0) fo.width n)
    if d.badPool o || !(reads ++ outs).all (fun l => s.inPart u l) then s.mapFail h (qs.flatMap (fun q => (List.range n).map (outBit q))) fo.width
    else if d.empty 0 then (s.count (cEmptyOutput (coreBlk u)) 1).worked h
    else
      s.mapOut h (o.imm % 2 ^ 24 :: reads)
        (qs.flatMap (fun q => (List.range n).map (fun ch =>
          (outBit q ch, vecCell fo (poolGrad o.func d fa c (q / d.w) (q % d.w) ch) 0)))) fo.width
  | none => s.mapFail h [] 8

/-! ## Argmax (R171) -/

/-- The index of the largest element of a row, of the first NaN if there is one. -/
def argmax (xs : List Val) : Nat :=
  match xs.findIdx? (·.isNan) with
  | some i => i
  | none => (xs.zipIdx.foldl (fun (b : Val × Nat) p => if b.1.lt p.1 then p else b) (xs.getD 0 Val.zero, 0)).2

/-- VARGMAX. -/
def vargmaxWork (o : VecOps) (h : Holder) (s : State) : State :=
  match Fmt.ofCode o.fmtIn, Fmt.ofCode o.fmtOut with
  | some fi, some fo =>
    let u := coreOf h.queue.unit
    let c := s.cores[u]
    let vals (v : Nat) : List Val := (List.range (vectorLen o)).map (fun e => decode fi (vectorElem c o fi.width v e))
    let vs := List.range (vectorCount o)
    let idx := vs.map (fun v => vecCell fo (Val.ofInt (argmax (vals v))) 0)
    let win (v : Nat) : Val := (vals v).getD (argmax (vals v)) Val.zero
    let s1 := s.vecOut h (aLines o fi.width) o.dLine fo.width [idx]
    if o.func.testBit 0 then s1.vecOut h (aLines o fi.width) o.cLine 32 [vs.map (fun v => vecCell .fp32 (win v) 0)] else s1
  | _, _ => s.worked h

/-! ## Pewter window layer (R164-R167) -/

/-- `w` bits at a bit offset of a Pewter store of `size` lines. -/
def storeBits (m : Table Line) (size base bit w : Nat) : Nat :=
  let line (n : Nat) : Nat := (look Line.zero m (n % size)).bits.toNat
  let l := base + bit / 512
  let o := bit % 512
  let lo := line l >>> o
  let x := if o + w ≤ 512 then lo else lo + (line (l + 1) <<< (512 - o))
  x % 2 ^ w

/-- The weight format of EWIN: INT16 for integers; floating-point weights have the map's format. -/
def ewinWeights (fa : Fmt) (fpWeights : Bool) : Option Fmt :=
  match fa, fpWeights with
  | .int8, false => some .int16
  | .int16, false => some .int16
  | .fp16, true => some .fp16
  | .bf16, true => some .bf16
  | _, _ => none

/-- One output of EWIN (R166): the code, INT32 saturations and whether the conversion saturated. -/
def ewinCell (o : EwinOps) (d : WDesc) (e : Pewter) (fa fw fo : Fmt) (p j : Nat) : Nat × Nat × Bool :=
  let k := d.taps * d.cg
  let a (t c : Nat) : Val :=
    match d.src p t with
    | .stored y x => decode fa (storeBits e.buf 24576 (d.inLine + y * d.inRowPitch) (fa.width * (x * d.pixPitch + c)) fa.width)
    | .zero => decode fa 0
    | .pad => decode fa (d.padCode fa.width)
  let w (q : Nat) : Val := decode fw (storeBits e.weights 1024 o.wOffset (16 * (q * 64 + j)) 16)
  let par (n : Nat) : Val := ofFp32 (storeBits e.weights 1024 (o.epiOffset + 4 * n) (32 * j) 32)
  let chunk (n : Nat) : Val :=
    (List.range (min 36 (k - 36 * n))).foldl (fun x q =>
      let kk := 36 * n + q
      x.add ((a (kk / d.cg) (kk % d.cg)).mul (w kk))) Val.zero
  let n := ceilDiv k 36
  let accInt := o.eflags.testBit 2
  let r : Val × Nat :=
    if accInt then
      (List.range n).foldl (fun acc i => let y := satVal ((acc.1).int + (chunk i).int); (y.1, acc.2 + y.2)) (Val.zero, 0)
    else ((List.range n).foldl (fun acc i => round32 (acc.add (chunk i))) Val.zero, 0)
  let y := round32 r.1
  let y := round32 ((round32 (y.mul (par 0))).add (par 1))
  let act := o.eflags % 4
  let y := if act = 1 then activation 0 y .zero .zero else if act = 2 then activation 2 y (par 2) (par 3) else y
  let z := conv fo y
  (z.code, r.2, z.sat)

/-- Lines of the line buffer that a position's window reads. -/
def ewinLines (d : WDesc) (w p : Nat) : List Nat :=
  (List.range d.taps).flatMap (fun t => (d.inputLines w p t 0 d.cg).map (· % 24576))

/-- Bytes that an engine's output buffer holds, out of 512 KiB (R164). -/
def Pewter.held (e : Pewter) : Nat := e.out.foldl (fun n r => n + r.data.length) 0

/-- The outputs of a command placed in the output buffer from where the engine stands, each with the INT32 saturations and the saturated conversions it
counts, while there is room for them (R164); answers whether all are there. DESIGN CHOICE (log 105). -/
def State.ewinEmit : Nat → State → Holder → Nat → (Nat → OutRun × Nat × Nat) → Bool × State
  | 0, s, h, _, _ => (true, s.setMover h { s.mover h with stall := .none })
  | k + 1, s, h, n, run =>
    let m := s.mover h
    let r := run m.next
    if 524288 < (s.pewter n).held + r.1.data.length then (false, s.setMover h { m with stall := .slot })
    else
      let s := ((s.onEe n (fun p => { p with out := p.out ++ [r.1] })).count (blkEe n + 0x20C) r.2.1).count (blkEe n + 0x210) r.2.2
      (s.setMover h { m with next := m.next + 1, poisoned := m.poisoned || r.1.poisoned, flagged := m.flagged || r.1.flagged }).ewinEmit k h n run

/-- The lines of the weight store that a command reads: weights and epilogue parameters (R165). -/
def ewinStore (o : EwinOps) (d : WDesc) : List Nat :=
  (List.range (72 * ceilDiv (d.taps * d.cg) 36)).map (o.wOffset + ·) ++ (List.range 16).map (o.epiOffset + ·)

/-- Whether EWIN's descriptor is invalid (R157, R165). -/
def ewinBad (o : EwinOps) (d : WDesc) : Bool :=
  let k := d.taps * d.cg
  match Fmt.ofCode d.fmtA, Fmt.ofCode o.fmtOut with
  | some fa, some _ =>
    d.badCommon || d.aMode != 0 || d.bMode != 0 || (ewinWeights fa (o.eflags.testBit 3)).isNone || (o.eflags.testBit 2 && !fa.isInt) ||
    decide (d.pixPitch < d.cg) || decide (65536 < k) || decide (1024 < o.wOffset + 72 * ceilDiv k 36) || decide (1024 < o.epiOffset + 16)
  | _, _ => true

/-- The outputs of one position, with what they count: zeros with POISON where an input is POISONED (R166, R379). -/
def ewinRun (o : EwinOps) (d : WDesc) (e : Pewter) (bad0 : Bool) (p : Nat) : OutRun × Nat × Nat :=
  let fa := (Fmt.ofCode d.fmtA).getD .int8
  let fo := (Fmt.ofCode o.fmtOut).getD .int8
  let fw := (ewinWeights fa (o.eflags.testBit 3)).getD .int16
  let cout := o.coutM1 + 1
  let n := ceilDiv (cout * fo.width) 8
  let ls := (ewinStore o d).map (fun l => look Line.zero e.weights l) ++ (ewinLines d fa.width p).map (fun l => look Line.zero e.buf l)
  let flag := ls.any (·.flagged)
  if bad0 || ls.any (·.poison) then (⟨List.replicate n 0, true, flag⟩, 0, 0)
  else
    let cs := (List.range cout).map (fun j => ewinCell o d e fa fw fo p j)
    (⟨leBytes n (packCodes fo.width (cs.map (·.1))), false, flag⟩, cs.foldl (fun x c => x + c.2.1) 0, (cs.filter (fun c => c.2.2)).length)

/-- EWIN goes on from where it stands: its descriptor first (R165), then its positions (R166), while the output buffer has room. -/
def State.runEwin (s : State) (h : Holder) (o : EwinOps) : State :=
  let n := unitIndex h.queue.unit
  let blk := blkEe n
  match s.readVirt h 0xFFFF o.descAddr 64 [0, 0, 0, 0, 0] with
  | (.stopped, _, _, s1) => s1
  | (_, bs, bad0, s1) =>
    let d := parseWindow bs
    let count := o.posM1 + 1
    let at0 := (s1.mover h).next
    if ewinBad o d then
      let width := match Fmt.ofCode o.fmtOut with | some fo => fo.width | none => 8
      match s1.ewinEmit (count - at0) h n (fun _ => (⟨List.replicate (ceilDiv ((o.coutM1 + 1) * width) 8) 0, true, false⟩, 0, 0)) with
      | (false, s2) => s2
      | (true, s2) => (s2.count (blk + 0x208) 1).worked h
    else if d.empty o.p0 then (s1.count (blk + 0x204) 1).worked h
    else
      let live := min count (d.positions - o.p0)
      match s1.ewinEmit (live - at0) h n (fun i => ewinRun o d (s1.pewter n) bad0 (o.p0 + i)) with
      | (false, s2) => s2
      | (true, s2) =>
        let s2 := s2.addSteps blk (live * max 1 (ceilDiv (d.taps * d.cg) 36))
        (s2.noteMarks h.queue (s2.mover h).poisoned (s2.mover h).flagged).worked h

/-- EWIN (R165, R166). -/
def ewinWork (o : EwinOps) (h : Holder) (s : State) : State := s.runEwin h o

end Sys2Proof.Machine
end

