-- ==== Sys2Proof/Machine/Resume.lean ====
section
/-! DEFINITION. Machine/Resume.lean: commands in progress that go on once what they waited for has come (R63, R146-R150). -/

namespace Sys2Proof.Machine

open Sys2Proof

/-- TIME_READ (R380): the work of one command. -/
def timeReadWork (o : TimeReadOps) (h : Holder) (s : State) : State := s.runTimeRead h o

/-- A command in progress goes on from where it stands; commands whose work is done at their start have nothing to go on with. -/
def State.goOn (s : State) (h : Holder) (c : Command) : State :=
  match c.body with
  | .xfer o => s.runXfer h c.hdr o
  | .nWrite o => s.runNWrite h o
  | .pgTouch o => s.runTouch h o
  | .timeRead o => s.runTimeRead h o
  | .ewin o => s.runEwin h o
  | .ppParam o => s.runParam h false o
  | .ppBParam o => s.runParam h true o
  | .ppBRows o => s.runBRows h o
  | .sctlRead o => s.runSctlRead h o
  | .sldColl o => s.runColl h o
  | .ethFlow o => s.runEthFlow h o
  | .ethGcl o => s.runEthGcl h o
  | .ethSend o => s.runEthSend h c.hdr.timed o
  | _ => s

/-- Whether a command in progress can be tried again: its work is not finished and it waits neither for a fault nor for a neighbour. -/
def InProg.eager (e : InProg) : Bool :=
  !e.worked && (match e.mover.stall with
    | .fault _ => false
    | .record _ => false
    | .remote => false
    | _ => true)

/-- Every queue of the block. DESIGN CHOICE (log 98). -/
def State.allQueues (s : State) : List QueueId := s.mainQueues ++ (unitPorts .invar).map (QueueId.mk .invar)

/-- Commands in progress of a queue tried again, in order; those of a killed stream go no further (R72). -/
def State.kickQueue (s : State) (q : QueueId) : State :=
  if q.unit != .invar && s.job.state != .running then s
  else ((s.queue q).prog.map (·.seq)).foldl (fun s n =>
    match s.prog ⟨q, n⟩ with
    | some e => if e.eager then s.goOn ⟨q, n⟩ e.cmd else s
    | none => s) s

/-- Commands in progress of every queue tried again. DESIGN CHOICE (log 98). -/
def State.kickOnce (s : State) : State := s.allQueues.foldl (fun s q => s.kickQueue q) s

/-- What follows once credits, tokens, pages or records have come: record ports, pipelines and commands in progress go on. DESIGN CHOICE (log 35); DESIGN CHOICE (log 98). -/
def State.kick (s : State) : State :=
  let s := (List.range 4).foldl (fun s p => s.sendRecs 64 p) s
  let s := (List.range 4).foldl (fun s n => (s.runPipe n).drainBack n) s
  let s := s.kickOnce
  s.kickOnce

/-! ## Fills (R147, R149, R150) -/

/-- Waiting faults of a page closed: their commands go on, oldest first; `refused` marks the page as refused to them. DESIGN CHOICE (log 35). -/
def State.closeFaults (s : State) (key : Nat) (refused : Bool) : State :=
  let mine := s.faults.records.filter (fun r => s.pageKey r.page == key)
  let s := { s with faults := { s.faults with
    records := s.faults.records.filter (fun r => s.pageKey r.page != key)
    fills := s.faults.fills.filter (fun f => f.key != key)
    request := if s.faults.request.any (fun p => s.pageKey p == key) then none else s.faults.request } }
  let s := mine.foldl (fun s r =>
    match r.holder with
    | some h =>
      let s := if refused then s.setMover h { s.mover h with
        refused := (s.mover h).refused ++ [2 * key, 2 * key + 1] } else s
      s.unpark h r.channel
    | none => s) s
  -- commands that waited for a free record try again
  let wait := s.faults.waiting
  let s := { s with faults := { s.faults with waiting := [] } }
  wait.foldl (fun s r => match r.holder with | some h => s.unpark h r.channel | none => s) s

/-- FAULT_RESOLVED (R147): a zero fill, or a neighbour fill with the bytes that the neighbour sent; the page is valid, and what waited goes on. -/
def State.faultResolved (s : State) (page : Nat) (data : List Byte) : State :=
  match s.faults.fills.find? (fun f => f.key == s.pageKey page && f.kind != 3) with
  | none => s
  | some f =>
    let n := 4096 * s.pageParts f.key
    let at0 := s.partPhys f.key 0
    let s := if f.kind = 1 then s.memZero at0 n else (s.memZero at0 n).memWrite at0 (data.take n)
    (s.validate f.key).closeFaults f.key false

/-- The oldest host fill. -/
def State.hostFill (s : State) : Option Fill := s.faults.fills.find? (fun f => f.kind == 3)

/-- Whether the upload buffer is held by an upload or an attestation report (R55, R150). -/
def State.bufferTaken (s : State) : Bool := s.loader.stage == .receiving || s.sec.held || s.loader.wanted.isSome

/-- HOST_FILL_REQUEST (R150): the oldest host fill is posted in MEM_FILL_REQ, with FILL_WANTED and the interrupt; a staged token is discarded. -/
def State.fillRequest (s : State) : State :=
  if s.faults.request.isSome || s.bufferTaken then s
  else match s.hostFill with
    | none => s
    | some f =>
      { s with faults := { s.faults with request := some (f.key + f.part) }, upload := { s.upload with staged := 0 } }.irq .fillWanted

/-- MEM_FILL_DONE (R150): the page's bytes are copied from the upload buffer; the next part of a LARGE page is asked for, or the page is valid. -/
def State.fillDone (s : State) (w : Word) : State :=
  match s.faults.request, s.hostFill with
  | some p, some f =>
    if w.toNat % 2 ^ 24 ≠ p then s
    else
      let bs := lookAll (0 : Byte) s.upload.data 0 4096
      let s := (s.memZero (s.partPhys f.key f.part) 4096).memWrite (s.partPhys f.key f.part) bs
      let s := { s with faults := { s.faults with request := none } }
      if f.part + 1 < s.pageParts f.key then
        { s with faults := { s.faults with fills := s.faults.fills.map (fun g => if g.key == f.key then { g with part := g.part + 1 } else g) } }
      else (s.validate f.key).closeFaults f.key false
  | _, _ => s

/-- FILL_TIMEOUT (R148, R150): the whole page of the request is refused; each fault on it counts. -/
def State.fillTimeout (s : State) : State :=
  match s.faults.request, s.hostFill with
  | some _, some f =>
    let n := (s.faults.records.filter (fun r => s.pageKey r.page == f.key)).length
    (s.count rXferIllegal n).closeFaults f.key true
  | _, _ => s

/-- MEM_PT_SEL: the entry of the selected page is looked up. -/
def State.ptSelect (s : State) (w : Word) : State :=
  let p := w.toNat % 2 ^ 24
  let e := s.pte p
  ((s.setReg (blkMem + 0x40C) (p + 2 ^ 31)).setReg (blkMem + 0x410) (e % 2 ^ 32)).setReg (blkMem + 0x414) (e / 2 ^ 32)

/-- MEM_BW_SPLIT (R140): a clear-only write, or shares that are judged and staged for the next full load. -/
def State.bwSplit (s : State) (w : Word) : State :=
  let r := blkMem + 0x400
  let v := w.toNat
  let s := if v.testBit 28 then s.setRegField r 28 1 0 else s
  if v % 2 ^ 12 = 0 then s
  else
    let rd := field v 0 4
    let wr := field v 4 4
    let rm := field v 8 4
    if 1 ≤ rd ∧ rd ≤ 7 ∧ 1 ≤ wr ∧ wr ≤ 7 ∧ rm ≤ 6 ∧ rd + wr + rm = 8 then s.setRegField r 0 12 v
    else s.setRegField r 28 1 1

end Sys2Proof.Machine
end

