-- ==== Sys2Proof/Machine/Network.lean ====
section
/-! DEFINITION. Machine/Network.lean: what a Solder port receives, and its link, lanes and routes (R285-R296, chapter 7's remote accesses). -/

namespace Sys2Proof.Machine

open Sys2Proof

/-! ## The link (R287) -/

/-- SLD_CRC, SLD_REPLAY, SLD_RETRAIN and SLD_LANE_SWITCH of a port. -/
def cSldCrc (n : Nat) : Nat := bank n (blkSld + 0x020)
def cSldReplay (n : Nat) : Nat := bank n (blkSld + 0x024)
def cSldRetrain (n : Nat) : Nat := bank n (blkSld + 0x028)
def cSldLaneSwitch (n : Nat) : Nat := bank n (blkSld + 0x02C)

/-- A packet's CRC and SEQ checked on arrival (R287): a packet that fails is NACKed and counted; packets are acknowledged every 32.
Answers whether it is taken. -/
def State.receive (s : State) (r : Rx) : Bool × State :=
  let p := s.port r.port
  if !p.up || p.retraining then (false, s)
  else if !r.crcOk || r.pkt.seq != p.rxSeq then
    (false, (s.onPort r.port (fun p => { p with ctl := some (true, p.rxSeq) })).count (cSldCrc r.port) 1)
  else
    (true, s.onPort r.port (fun p =>
      let n := (p.rxSeq + 1) % 256
      if p.unacked + 1 = 32 then { p with rxSeq := n, unacked := 0, ctl := some (false, n) }
      else { p with rxSeq := n, unacked := p.unacked + 1 }))

/-- Packets of the replay buffer from the one that carries `seq` on; none when all have been acknowledged. -/
def afterSeq (seq : Nat) : List Packet → List Packet
  | [] => []
  | k :: ks => if k.seq = seq then k :: ks else afterSeq seq ks

/-- A retraining of a port starts (R287, R223): its traffic waits and time messages pause. -/
def State.retrain (s : State) (n : Nat) : State :=
  ((s.onPort n (fun p => { p with retraining := true, fails := 0 })).count (cSldRetrain n) 1).timePause n

/-- The channels of this device whose first hop is a port. -/
def State.throughPort (s : State) (n i : Nat) : Bool :=
  let e := (s.chan i).ent
  e.kind == 0x08 && !e.multicast && field e.dest 22 10 != s.device &&
  (match s.hopTo (field e.dest 22 10) none with | some h => h.port == n | none => false)

/-- The shape that a neighbour on a port must declare (R290). -/
def State.expected (s : State) (n : Nat) : Option Shape :=
  s.stream.map (fun st => ⟨portNeighbour st.dims s.device n, st.deviceCount, st.topologyKind, st.dims⟩)

/-- A neighbour's shape learned: channels that waited for the neighbour's load get their credits once it confirms the shape (R290). -/
def State.learnShape (s : State) (n : Nat) (sh : Shape) : State :=
  let was := (s.port n).shape
  let s := s.onPort n (fun p => { p with shape := some sh, neighbour := sh.number })
  if s.expected n = some sh ∧ was ≠ some sh then
    (List.range s.chans.length).foldl (fun s i =>
      if s.throughPort n i && !(s.chan i).started then
        s.onChan i (fun c => { c with recv := c.recv.map (fun r => { r with credits := c.ent.creditDepth }) })
      else s) s
  else s

/-- LINK_CTRL (R287, R290): an acknowledgement frees the replay buffer up to SEQ; a NACK replays from it; the eighth failure of one packet
starts a retraining. DESIGN CHOICE (log 51). -/
def State.linkCtrl (s : State) (n : Nat) (nack : Bool) (seq : Nat) (shape : Option Shape) : State :=
  let s := match shape with | some sh => s.learnShape n sh | none => s
  let p := s.port n
  let rest := afterSeq seq p.tx
  let same := match p.tx, rest with | a :: _, b :: _ => a.seq == b.seq | _, _ => false
  let fails := if nack && !rest.isEmpty then (if same then p.fails + 1 else 1) else if same then p.fails else 0
  let s := s.onPort n (fun p => Port.flush 128 { p with tx := rest, fails := fails })
  let s := if nack && !rest.isEmpty then s.count (cSldReplay n) 1 else s
  if 8 ≤ fails then s.retrain n else s

/-- Packets that could not be sent try their routes again; channels without a route resume when one opens (R291). -/
def State.reroute (s : State) : State :=
  let lost := (List.range 8).flatMap (fun n => if (s.port n).up then [] else (s.port n).tx ++ (s.port n).waiting)
  let s := (List.range 8).foldl (fun s n => if (s.port n).up then s else s.onPort n (fun p => { p with tx := [], waiting := [] })) s
  let s := { s with
    chans := s.chans.mapIdx (fun i c =>
      if look false s.unreachable i && c.ent.state == 2 && c.stalls == 0 then { c with ent := { c.ent with state := 1 } } else c)
    unreachable := [] }
  lost.foldl (fun s k => s.sendPacket k none) s

/-- PORT_RETRAIN_DONE (R223, R287): the asymmetry has been measured again; waiting packets go. -/
def State.retrainDone (s : State) (n : Nat) (asym : Int) : State :=
  let s := s.onTimePort n (fun p => { p with asym := asym })
  (s.onPort n (fun p => Port.flush 128 { p with retraining := false })).reroute

/-- The lane of a one-lane set. -/
def laneBit (n : Nat) : BitVec 5 := BitVec.ofNat 5 (2 ^ n)

/-- The lowest lane of a set. -/
def lowLane (b : BitVec 5) : BitVec 5 :=
  match (List.range 5).find? (fun i => b.getLsbD i) with | some i => laneBit i | none => 0

/-- A lane out of use: a parked lane takes its place, else the spare when it is free (R288, R330). -/
def Port.replaceLane (p : Port) (b : BitVec 5) : Port :=
  let rest := p.inUse &&& ~~~b
  if p.parked ≠ 0 then { p with inUse := rest ||| lowLane p.parked, parked := p.parked &&& ~~~(lowLane p.parked) }
  else if p.spare ≠ 0 then { p with inUse := rest ||| lowLane p.spare, spare := p.spare &&& ~~~(lowLane p.spare) }
  else { p with inUse := rest }

/-- A lane leaves use (R288), and trains again in the background. -/
def State.laneDegrade (s : State) (n lane : Nat) : State :=
  let b := laneBit lane
  if !(s.port n).inUse.getLsbD lane then s
  else
    let s := s.onPort n (fun p => { p.replaceLane b with training := p.training ||| b })
    if (s.port n).up then s else (s.timePause n).reroute

/-- LANE_RETRAIN_DONE (R288): a lane that passes becomes the spare, or returns to use where lanes are missing; one that fails is retired, SLD_LANE_SWITCH counts,
and SPARES is set; time messages pause until the asymmetry of the remaining lanes has been measured (R223). DEDUCED (log 52). -/
def State.laneDone (s : State) (n lane : Nat) (passed : Bool) (asym : Int) : State :=
  let b := laneBit lane
  if !(s.port n).training.getLsbD lane then s
  else
    let used (p : Port) : Nat := ((List.range 5).filter (fun i => p.inUse.getLsbD i || p.parked.getLsbD i)).length
    if passed then
      (s.onPort n (fun p =>
        let p := { p with training := p.training &&& ~~~b }
        if used p < 4 then { p with inUse := p.inUse ||| b } else { p with spare := p.spare ||| b })).reroute
    else
      ((((s.onPort n (fun p => { p with training := p.training &&& ~~~b, retired := p.retired ||| b })).count (cSldLaneSwitch n) 1).irq
        .spares).timePause n).onTimePort n (fun p => { p with asym := asym })

/-- A port trained at firmware start (R288): four lanes in use and the fifth spare, of those not retired. -/
def State.trainPort (s : State) (n : Nat) (asym : Int) : State :=
  let s := s.onTimePort n (fun p => { p with asym := asym })
  s.onPort n (fun p =>
    let good := (List.range 5).filter (fun i => !p.retired.getLsbD i)
    { p with
      inUse := (good.take 4).foldl (fun a i => a ||| laneBit i) 0
      spare := (good.drop 4).foldl (fun a i => a ||| laneBit i) 0
      training := 0, parked := 0, retraining := false })

/-! ## Packets (R291-R296) -/

/-- A packet that cannot be delivered (R292-R294). -/
def State.sldOrphan (s : State) : State := s.count rSldOrphan 1

/-- The token that a prefix and payload spell. -/
def tokenOf (marks : Nat) (bs : List Byte) : Token :=
  ⟨Marks.ofByte marks, leAt bs 0 4, leAt bs 4 2, leAt bs 8 8, bs.drop 16⟩

/-- A DATA packet for this device (R293): its token is built up, and delivered with its LAST packet. -/
def State.dataHere (s : State) (k : Packet) : State :=
  let e := (s.chan k.channel).ent
  if !(s.hasChan k.channel && e.kind == 0x08 && !e.multicast && field e.source 22 10 == k.src && k.src != s.device) then s.sldOrphan
  else
    let t : Token :=
      if k.marks.testBit 6 then tokenOf k.marks k.payload
      else
        let old := ((s.chan k.channel).rx).getD ⟨Marks.none, 0, 0, 0, []⟩
        { old with data := old.data ++ k.payload, marks := Marks.ofByte (old.marks.byte ||| k.marks % 64) }
    if k.marks.testBit 7 then (s.onChan k.channel (fun c => { c with rx := none })).takeIn k.channel t
    else s.onChan k.channel (fun c => { c with rx := some t })

/-- DATA (R291, R293): relayed onward or delivered. -/
def State.dataPacket (s : State) (r : Rx) : State :=
  if r.pkt.dest ≠ s.device then s.sendPacket r.pkt (some r.port) else s.dataHere r.pkt

/-- Credits that reach the sender of a channel for receiver `k` (R17, R21): tokens held back under shed are issued. -/
def State.creditIn (s : State) (i k n : Nat) : State :=
  let s := s.onChan i (fun c => c.credit k n)
  match (s.chan i).recv[k]? with
  | none => s
  | some r =>
    if (s.chan i).ent.shed && !r.backlog.isEmpty then
      let x := Receiver.drain (r.backlog.length + 1) r
      x.2.foldl (fun s t => s.issueTo i k t) (s.onChan i (fun c => { c with recv := c.recv.set k x.1 }))
    else s

/-- CREDIT_ARRIVAL: credits on their way to a sender on this device reach it (R17). -/
def State.creditArrival (s : State) (i k n : Nat) : State :=
  let m := min n (s.chan i).flying
  if m = 0 then s else (s.onChan i (fun c => { c with flying := c.flying - m })).creditIn i k m

/-- CREDIT (R293): relayed onward, or taken by the channel whose sender this device is. -/
def State.creditPacket (s : State) (r : Rx) : State :=
  let k := r.pkt
  if k.dest ≠ s.device then s.sendPacket k (some r.port)
  else
    let e := (s.chan k.channel).ent
    if s.hasChan k.channel && e.kind == 0x08 && field e.source 22 10 == s.device && field e.dest 22 10 == k.src then
      s.creditIn k.channel 0 k.len
    else s.sldOrphan

/-- The record of a relayed flow; a new one starts with what room its branches have, a free value. DESIGN CHOICE (log 53). -/
def State.flowFor (s : State) (k : Packet) (port : Nat) (policy : Option Nat) (e : Relay) : RelayFlow × State :=
  match s.relayed.find? (fun f => f.group == k.dest && f.channel == k.channel) with
  | some f => ({ f with inPort := port, policy := policy, src := k.src }, s)
  | none =>
    let n := e.branches.length
    let r := s.fresh
    (⟨k.dest, k.channel, k.src, port, policy, 0, [], List.replicate n ⟨r.1, [], false, false⟩, List.replicate n 0, 0⟩, r.2)

/-- A whole token of a relayed flow (R294, R295): under hold it goes to every branch; under shed to those with room, and frames are dropped
for a branch that lags. -/
def State.relayToken (s : State) (f : RelayFlow) (t : Token) : State :=
  match f.policy with
  | none => (List.range f.branches.length).foldl (fun s k => s.branchSend f k t) (s.setFlow f)
  | some depth =>
    let rs := f.branches.map (fun r => r.offer depth t)
    let drops := rs.foldl (fun n x => n + x.2.2) 0
    let f := { f with branches := rs.map (·.1) }
    ((rs.map (fun x => x.2.1)).zipIdx.foldl (fun s x => x.1.foldl (fun s t => s.branchSend f x.2 t) s) (s.setFlow f)).count rSldShedDrop drops

/-- MCAST_DATA (R294, R295): a packet of a group on its arriving port. -/
def State.mcastData (s : State) (r : Rx) (policy : Option Nat) : State :=
  let k := r.pkt
  match s.relayEntry k.dest r.port with
  | none => s.sldOrphan
  | some e =>
    let x := s.flowFor k r.port policy e
    let f := if k.marks.testBit 6 then { x.1 with asm := k.payload, marks := k.marks }
      else { x.1 with asm := x.1.asm ++ k.payload, marks := x.1.marks ||| k.marks }
    if k.marks.testBit 7 then x.2.relayToken { f with asm := [], marks := 0 } (tokenOf (f.marks % 64) f.asm)
    else x.2.setFlow f

/-- The place of a port among branches. -/
def branchOf (bs : List (Option Nat)) (port : Nat) : Option Nat := bs.findIdx? (· == some port)

/-- MCAST_CREDIT (R295): credits of a branch, combined and sent upstream, or taken by the sender. -/
def State.mcastCredit (s : State) (r : Rx) : State :=
  let k := r.pkt
  let e := (s.chan k.channel).ent
  if s.hasChan k.channel && e.multicast && e.dest % 4096 == k.dest && field e.source 22 10 == s.device then
    match branchOf (s.branches e) r.port with
    | some b => s.creditIn k.channel b k.len
    | none => s.sldOrphan
  else match s.relayed.find? (fun f => f.group == k.dest && f.channel == k.channel) with
    | some f =>
      match branchOf (((s.relayEntry f.group f.inPort).map Relay.branches).getD []) r.port with
      | some b => s.branchCredit f b k.len
      | none => s.sldOrphan
    | none => s.sldOrphan

/-! ## Barriers (R296) -/

/-- SCOPE 1 barriers of the loaded lists. -/
def State.domainBarriers (s : State) : List Nat :=
  ((s.job.lists.flatMap (fun l => l.cmds.filterMap (fun c =>
    match c.body with | .barrier o => if o.scope = 1 then some o.id else none | _ => none)))).eraseDups

/-- Whether the main stream is killed or being killed. -/
def State.isKilled (s : State) : Bool := s.job.state == .killing || s.job.state == .killed

/-- The relay reports a killed device as arrived, with BROKEN (R72, R296). -/
def State.reportKilled (s : State) (b : Nat) : State :=
  if s.isKilled && !(s.arrivals b).reported then
    (s.setArrivals b { s.arrivals b with reported := true, since := s.now, broken := true }).gatherDomain b
  else s

/-- SOLDER_BARRIER (R296): an arrival from below or the release from above. DESIGN CHOICE (log 24). -/
def State.barrierPacket (s : State) (r : Rx) : State :=
  let k := r.pkt
  if k.dest ≠ s.device then s.sendPacket k (some r.port)
  else
    let b := k.channel
    let flags := leAt k.payload 0 1
    if flags.testBit 0 then ((s.releaseDomain b (flags.testBit 1)).reportKilled b)
    else
      let a := s.arrivals b
      let s := s.setArrivals b { a with kids := if a.kids.contains k.src then a.kids else a.kids ++ [k.src], broken := a.broken || flags.testBit 1 }
      if s.isKilled && !(s.arrivals b).reported then s.reportKilled b else s.gatherDomain b

/-- COLL (R298): relayed onward, or taken by this device's collective. -/
def State.collIn (s : State) (r : Rx) : State :=
  if r.pkt.dest ≠ s.device then s.sendPacket r.pkt (some r.port) else s.collPacket r.pkt

/-! ## Memory accesses of neighbours (R142, R292) -/

/-- The answer to a memory request; MARKS says POISONED, and PAD beside it where the data stand for a refused page. DESIGN CHOICE (log 36). -/
def State.answerMem (s : State) (k : Packet) (data : List Byte) (poisoned refused : Bool) : State :=
  s.sendPacket ⟨8, 5, 16 * b2n poisoned + 4 * b2n refused, k.src, s.device, k.channel, data.length, 0, data⟩ none

/-- Whether a fault of a neighbour's request has its record already. -/
def State.recorded (s : State) (r : FaultRec) : Bool :=
  s.faults.records.any (fun x => x.holder.isNone && x.page == r.page && x.endpoint == r.endpoint && x.channel == r.channel && x.dir == r.dir)

/-- A neighbour's memory request served (R142): through this device's page table and REMOTE slots; a fault is recorded with the requester's DEVICE and resolved
here, a request on a page that is being filled taking a record of its own (R149). Without a free record the request waits. DESIGN CHOICE (log 36). -/
def State.serveMem (s : State) (k : Packet) : State :=
  let va := leAt k.payload 0 8
  let len := leAt k.payload 8 2
  let write := leAt k.payload 10 1 = 1
  let keep := { s with served := s.served ++ [k] }
  if s.regField (blkMem + 0x400) 24 4 = 0 then keep
  else match s.translate va write with
    | .ok p =>
      if write then (s.stackWrite p (k.payload.drop 11)).answerMem k [] false false
      else
        let r := s.stackRead p len
        r.2.2.answerMem k r.1 r.2.1 false
    | .fault c =>
      let vp := va / 4096 % 2 ^ 24
      let st := if c = 1 then fillState (s.pte vp) else 4
      let r : FaultRec := ⟨vp, k.src * 2 ^ 22 + 0x080000, k.channel, c, st, b2n write, 0, [0, 0, 0, 0, 0], 0, none⟩
      if st = 4 then ((s.writeRecord r false).count rXferIllegal 1).answerMem k (if write then [] else List.replicate len 0) true true
      else if s.recorded r || decide (32 ≤ s.faults.records.length) then keep
      else ((keep.writeRecord r true).startFill (s.pageKey vp) st)

/-- Requests that waited served again. -/
def State.serveAll (s : State) : State :=
  let ks := s.served
  ks.foldl (fun s k => s.serveMem k) { s with served := [] }

/-- Requests for a page that is refused answered with zeros and POISONED. -/
def State.serveRefused (s : State) (key : Nat) : State :=
  let hit (k : Packet) : Bool := s.pageKey (leAt k.payload 0 8 / 4096 % 2 ^ 24) == key
  let ks := s.served.filter hit
  ks.foldl (fun s k => s.answerMem k (if leAt k.payload 10 1 = 1 then [] else List.replicate (leAt k.payload 8 2) 0) true true)
    { s with served := s.served.filter (fun k => !hit k) }

/-- MEM_REQ (R292): served when this device is the one across the link, else discarded. DESIGN CHOICE (log 36). -/
def State.memReq (s : State) (r : Rx) : State :=
  if r.pkt.dest = s.device ∧ portNeighbour s.dims s.device r.port = r.pkt.src then s.serveMem r.pkt else s.sldOrphan

/-- A page that a neighbour has refused to a transfer (R146, R148): a record with CAUSE 4, counted once; the page stays refused to the command. -/
def State.remoteRefused (s : State) (q : RemoteReq) (ch : Nat) : State :=
  let m := s.mover q.holder
  let mark := remoteMark q.device q.addr (b2n q.write)
  if m.refused.contains mark then s
  else
    let li := match s.currentList q.holder.queue with | some l => l.index | none => 0
    let pos := match s.prog q.holder with | some e => e.pos | none => 0
    let coord := match m.desc with | some d => coordsOf d.countM1 m.next | none => [0, 0, 0, 0, 0]
    let r : FaultRec := ⟨q.addr / 4096 % 2 ^ 24, queueEndpoint s.device q.holder.queue, ch, 4, 4, b2n q.write, li * 4096 + min pos 4095, coord, 0, some q.holder⟩
    (((s.writeRecord r false).count rXferIllegal 1)).setMover q.holder { m with refused := m.refused ++ [mark] }

/-- MEM_RESP (R142): the answer to the oldest access to that neighbour; its command goes on and its channel leaves STALLED. The answers to a neighbour
fill come with FAULT_RESOLVED. DESIGN CHOICE (log 36). -/
def State.memResp (s : State) (r : Rx) : State :=
  let k := r.pkt
  if k.channel = 0xFFFF ∧ s.faults.fills.any (fun f => f.kind == 2 && pteDevice (s.pte f.key) == k.src) then s else
  match s.remotes.find? (fun x => x.device == k.src) with
  | none => s.sldOrphan
  | some q =>
    let s := { s with remotes := s.remotes.erase q }
    let poison := k.marks.testBit 4
    match s.prog q.holder with
    | none => s
    | some e =>
      let m := e.mover
      let s := s.unpark q.holder k.channel
      let s := if poison && k.marks.testBit 2 then s.remoteRefused q k.channel else s
      let s := if q.write then s.putElem q.holder (m.held.getD []) poison else s.gotElem q.holder k.payload poison false
      s.goOn q.holder e.cmd

end Sys2Proof.Machine
end

