-- ==== Sys2Proof/Machine/Jobs.lean ====
section
/-! DEFINITION. Machine/Jobs.lean: doorbells, kill and rearm (R70, R72, R73), the channel snapshot (R28) and HOST_IRQ_STATUS (R265). -/

namespace Sys2Proof.Machine

open Sys2Proof

/-! ## Doorbells (R70) -/

/-- A full load stands between order 3 and its DONE. -/
def State.pastDrain (s : State) : Bool :=
  s.loader.busy && !(match s.loader.staged with | some st => st.reload | none => false) &&
  [LoadStage.draining, .scrubbing, .weights, .starting].contains s.loader.stage

/-- DEV_DB_RING (R70): COUNT jobs added to a doorbell, or the ring ignored and DB_OVERFLOW set. Rings during a restart of the management
controller are held (R268). -/
def State.dbRing (s : State) (w : Word) : State :=
  let n := w.toNat % 64
  let k := max 1 (field w.toNat 8 8)
  let sub := look 0 s.job.submitted n
  let next := seqAdd sub k
  if s.stream.isNone || s.pastDrain || decide (32767 < seqDist (look 0 s.job.completed n) sub + k) then s.setRegField rJobStatus 3 1 1
  else
    { s with job := { s.job with
      submitted := put 0 s.job.submitted n next, doorbell := put 0 s.job.doorbell n ((s.doorbell n + k) % 2 ^ 16) } }

/-! ## Kill (R72) -/

/-- Whether a channel belongs to the main stream: LEGAL channels follow its entries. -/
def State.isMain (s : State) (i : Nat) : Bool :=
  match s.stream with
  | some st => decide (i < st.entries.length)
  | none => false

/-- Tokens of a channel whose credit has not returned to its sender, or that are being received: for a sender on this device
those it has issued and those held back for a receiver, for a sender elsewhere those that have arrived. DESIGN CHOICE (log 28). -/
def State.outstanding (s : State) (i : Nat) : Nat :=
  let c := s.chan i
  if field c.ent.source 22 10 = s.device
  then c.recv.foldl (fun a r => max a (c.ent.creditDepth - r.credits + r.backlog.length)) 0
  else c.inbox.length + (if c.rx.isSome then 1 else 0)

/-- The tokens of a channel in flight, delivered or held back discarded and counted; its state KILLED. A token lost on a SENSOR_RATE channel
clears the guarantee (R35). DESIGN CHOICE (log 28). -/
def State.killChan (s : State) (i : Nat) : State :=
  let n := s.outstanding i
  let lost := s.onChan i (fun c => { c with
    recv := c.recv.map (fun r => { r with backlog := [], skipping := false, gap := false })
    flying := 0, pass := none, inbox := [], stalls := 0, rx := none, ent := { (c.ent.addDropped n) with state := 4 } })
  if (s.chan i).ent.sensorRate && decide (0 < n) then lost.clearGuarantee 4 else lost

/-- Every channel of the main stream killed. -/
def State.killChans (s : State) : State :=
  (List.range s.chans.length).foldl (fun s i => if s.isMain i then s.killChan i else s) s

/-- What the units of the main stream were forming is discarded with the tokens: frames, their records, tokens being reassembled, frames that wait for a gate. Capture and
window records stay in the time unit's store, those that the kill cut among them (R233, R238). -/
def State.dropWork (s : State) : State :=
  { s with
    cams := s.cams.map (fun c => { c with frames := [], records := [], closed := false })
    pipes := s.pipes.map (fun _ => Pipeline.idle)
    eth := s.eth.map (fun p => { p with held := [], rx := [] })
    relayed := [] }

/-- Waits of commands in progress closed: no record of a fault stays open for the main stream (R149), while fills, and the faults of neighbours and of Invar,
go on. -/
def State.dropFaults (s : State) : State :=
  let isInvar (r : FaultRec) : Bool := r.holder.all (fun h => h.queue.unit == .invar)
  { s with
    faults := { s.faults with records := s.faults.records.filter isInvar, waiting := s.faults.waiting.filter isInvar }
    remotes := s.remotes.filter (fun r => r.holder.queue.unit == .invar) }

/-- Whether a launch timer serves Invar: one of its queues or armed pin actions waits for it. -/
def State.invarTimer (s : State) (t : Nat) : Bool :=
  (look LaunchTimer.unused s.timers t).waiting.any (fun q => q.unit == .invar) ||
  (unitPorts .invar).any (fun p => (s.queue ⟨.invar, p⟩).armed == some t) ||
  s.time.armed.any (fun a => a.timer == t && a.holder.queue.unit == .invar)

/-- Armed launches of the main stream cancelled (R72); each timer keeps the tick it scheduled last (R67). -/
def State.dropLaunches (s : State) : State :=
  let s := s.mainQueues.foldl (fun s q => s.onQueue q (fun k => { k with armed := none })) s
  { s with timers := cancelTimers (fun t _ => !s.invarTimer t) s.timers }

/-- A stop of the main stream: armed launches, pin actions, collectives and barriers end, tokens are discarded (R72, R132, R238, R299). -/
def State.stopMain (s : State) : State :=
  let s := ((s.dropLaunches.killPins.killColls).killChans.dropWork).dropFaults
  s.mainQueues.foldl (fun s q => s.onQueue q (fun k => { k with wait := ⟨6, 0, false, 0⟩ })) s

/-- KILL (R72): ignored unless STATE is RUNNING; a SCOPE 1 barrier learns that this device was killed. -/
def State.kill (s : State) : State :=
  if s.job.state = .running then
    let s := { s with job := { s.job with state := .killing } }.stopMain
    s.domainBarriers.foldl (fun s b => s.reportKilled b) s
  else s

/-- Commands in progress ended without completing; the queue stands at the oldest of them (R72). DEDUCED (log 25). -/
def QState.cut (k : QState) : QState :=
  { k with prog := [], wait := ⟨6, 0, false, 0⟩, pc := match k.prog.find? (fun e => !e.done && !e.taken) with | some e => e.pos | none => k.pc }

/-- Lines that a transfer has written in part get their previous contents back: those that elements not yet written still go to (R132). -/
def State.undoPart (s : State) (h : Holder) : State :=
  match (s.mover h).desc with
  | some d =>
    let m := s.mover h
    if d.dstKind = 0 ∧ m.next < d.count then
      s.undo (coreOf h.queue.unit) h (fun l => (List.range d.count).any (fun n => decide (m.next ≤ n) && d.dst (coordsOf d.countM1 n) / 64 == l))
    else s
  | none => s

/-- Every command in progress of a queue ended as under a kill: a line keeps its previous contents or the whole of a write, and claims are released (R72, R132). -/
def State.cutQueue (s : State) (q : QueueId) : State :=
  (((s.queue q).prog.map (·.seq)).foldl (fun s n => (s.undoPart ⟨q, n⟩).release ⟨q, n⟩) s).onQueue q QState.cut

/-- Every main-stream command in progress ended, its claims released. -/
def State.cutQueues (s : State) : State := s.mainQueues.foldl State.cutQueue s

/-- KILL_COMPLETE (R72): every command in progress has ended; STATE reads KILLED. -/
def State.killDone (s : State) : State :=
  if s.job.state = .killing then { s.cutQueues with job := { s.cutQueues.job with state := .killed } } else s

/-! ## Rearm (R73) -/

/-- A channel as REARM leaves it: IDLE, its senders with CREDIT_DEPTH; frame number, counters and digest kept. -/
def Chan.rearm (c : Chan) : Chan :=
  { Chan.ofEntry { c.ent with state := 0 } c.recv.length with tokens := c.tokens, started := c.started, last := c.last }

/-- What REARM gives: channels IDLE, counters and loop slots zero, COMPLETED set to SUBMITTED, doorbell counters zero, queues at the first list
of phase 0. DEDUCED (log 25). -/
def State.rearmed (s : State) : State :=
  let chans := s.chans.zipIdx.map (fun x => if s.isMain x.2 then x.1.rearm else x.1)
  let s := { s with
    chans := chans
    tokens := s.tokens.filter (fun e => decide (unitIdx .invar * 64 ≤ e.1 ∧ e.1 < unitIdx .invar * 64 + 64))
    job := { s.job with
      phase := 0, completed := s.job.submitted, doorbell := [], dbMark := [], barriers := s.job.barriers.filter (fun e => decide (16 ≤ e.1)), holding := false } }
  let s := s.mainQueues.foldl (fun s q => s.onQueue q (fun k => { k with marks := [], prog := [] })) s
  s.startLists.phaseDomains 0 s.power.retired

/-- REARM (R73): ignored unless STATE is KILLED. -/
def State.rearm (s : State) : State :=
  if s.job.state = .killed then { s.rearmed with job := { s.rearmed.job with state := .rearming } } else s

/-- REARM_COMPLETE (R73): the queues start phase 0 and STATE reads RUNNING. -/
def State.rearmDone (s : State) : State :=
  if s.job.state = .rearming then { s with job := { s.job with state := .running } } else s

/-! ## The channel snapshot (R28) -/

/-- The sixteen words of an entry. -/
def Entry.words (e : Entry) : List Word := (List.range 16).map (fun i => BitVec.ofNat 32 (leAt e.bytes (4 * i) 4))

/-- CHN_SEL: VALID clears; an undefined identifier reads as zeros with UNDEFINED; a STALLED, KILLED, DONE or IDLE channel is copied at once. DESIGN CHOICE (log 110). -/
def State.chnSel (s : State) (w : Word) : State :=
  let n := w.toNat % 2 ^ 16
  let s := s.setReg (blkChn + 0x010) n
  if s.hasChan n then
    let e := (s.chan n).ent
    if [2, 4, 5, 0].contains e.state then { s with snap := ⟨false, true, false, e.words⟩ }
    else { s with snap := ⟨true, false, false, s.snap.words⟩ }
  else { s with snap := ⟨false, true, true, List.replicate 16 0⟩ }

/-- CHN_SNAP_COPY: a pending snapshot is taken between two tokens of its channel. -/
def State.snapCopy (s : State) : State :=
  if s.snap.pending then { s with snap := ⟨false, true, false, (s.chan (s.reg (blkChn + 0x010))).ent.words⟩ } else s

/-! ## HOST_IRQ_STATUS (R265, R267) -/

/-- W1C write of HOST_IRQ_STATUS: bits written as 1 clear; THERMAL stays set through a trip. -/
def State.irqClear (s : State) (w : Word) : State :=
  let keep := if s.trip.isSome then 2 ^ 6 else 0
  let v := s.reg rIrq
  s.setReg rIrq (v ^^^ (v &&& (w.toNat &&& (2 ^ 32 - 1 - keep))))

end Sys2Proof.Machine
end

