-- ==== Sys2Proof/Machine/Power.lean ====
section
/-! DEFINITION. Machine/Power.lean: the power controller: operating points, throttle reasons, the cap and its shares, droop, temperature, rate matching
and the thermal trip (R322-R338, R246).

Points count from 0: SUB0, SUB1, OP0 to OP7. -/

namespace Sys2Proof.Machine

open Sys2Proof

def rPwr (off : Nat) : Nat := blkPwr + off

/-- PWR_STATUS's cell holds CAP_UNMET (14), LIMIT_UNMET for THERMAL (15) and, in reserved bits, LIMIT_UNMET for CURRENT (18) and a
VDD_CORE regulator that does not answer (19), and RAIL_STALE (17). -/
def rPwrStatus : Nat := blkPwr

/-- The voltages at the die in mV (R324). -/
def pointMv (p : Nat) : Nat := [600, 650, 700, 720, 740, 760, 780, 800, 825, 850].getD p 850

/-- Minimum array step rates at Tj 110 °C, OP0 to OP7, in 10^6 steps/s (R324). -/
def pointRate (op : Nat) : Nat := [1400, 1480, 1550, 1630, 1700, 1780, 1840, 1900].getD op 1900

/-- The margin between setpoint and die voltage (R324): 25 mV on M2S1 and M4S1. -/
def Part.margin (p : Part) : Nat := if p.variant ≤ 1 then 25 else 0

/-- The highest point whose die voltage does not exceed `mv`; SUB0 below them. -/
def pointAt (mv : Nat) : Nat := ((List.range 10).filter (fun p => decide (pointMv p ≤ mv))).foldl max 0

/-- DEV_GUARANTEE.SENSOR_RATE. -/
def State.guaranteed (s : State) : Bool := s.regField rGuarantee 1 1 == 1

/-- The phase in effect: OP_PREFERRED, OP_MIN and CAP_PRIORITY; with no stream running VDD_CORE stays at OP0 (R325). DEDUCED (log 65). -/
def State.opPhase (s : State) : Nat × Nat × Nat :=
  match s.phaseRec with
  | some p => if s.job.state == .running then (p.opPreferred + 2, p.opMin + 2, p.capPriority) else (2, 2, 3)
  | none => (2, 2, 3)

/-- The bound of THERMAL and CURRENT: OP0 with SENSOR_RATE set, else SUB0 (R326). -/
def State.hardBound (s : State) : Nat := if s.guaranteed then 2 else 0

/-- The bound of CAP (R326). -/
def State.capBound (s : State) : Nat := if (s.reg (rPwr 0x004)).testBit 16 then s.hardBound else (s.opPhase).2.1

/-- All four host channels in self refresh or deep sleep (R246). -/
def State.hostIdle (s : State) : Bool := s.host.chans.toList.all (fun c => c.selfRefresh || c.deepSleep)

/-- A compute-die or Solder sensor above 110 °C: OP0 or lower is held (R336). -/
def State.overGrade (s : State) : Bool :=
  s.pwr.sensors.any (fun e => !(decide (32 ≤ e.1) && decide (e.1 ≤ 39)) && decide (880 < signed 16 e.2))

/-- The ceiling that a reason sets and the lowest point it may reach; 9 is no ceiling (R326, R331, R336). -/
def State.ceiling (s : State) (r : Nat) : Nat × Nat :=
  match r with
  | 0 => if s.pwr.brake then (s.hardBound, s.hardBound) else (s.pwr.cap, s.capBound)
  | 1 => (if s.overGrade then min 2 s.pwr.thermal else s.pwr.thermal, s.hardBound)
  | 4 => (s.pwr.current, s.hardBound)
  | 5 => (if s.hostIdle then (s.opPhase).2.1 else 9, (s.opPhase).2.1)
  | 6 => (if (s.reg (rPwr 0x00C)).testBit 3 then s.reg (rPwr 0x00C) % 8 + 2 else 9, (s.opPhase).2.1)
  | _ => (9, 9)

/-- The target point (R326, R332): the lowest ceiling, but not below the lowest bound of the reasons that hold it down. -/
def State.opTarget (s : State) : Nat :=
  let pref := (s.opPhase).1
  let rs := ([0, 1, 4, 5, 6].map s.ceiling).filter (fun c => decide (c.1 < pref))
  let hi := rs.foldl (fun a c => min a c.1) pref
  match rs with
  | [] => hi
  | c :: rest => max hi (rest.foldl (fun a x => min a x.2) c.2)

/-- The voltage at the die towards which the ramp goes: the target's, or the setting of rate matching within its bounds (R338). -/
def State.goalMv (s : State) : Nat :=
  let top := pointMv s.opTarget
  match s.pwr.matched with
  | some v => if (s.reg (rPwr 0x010)).testBit 12 then max (min v top) (pointMv s.hardBound) else top
  | none => top

/-- The next step of the ramp sent, of at most 10 mV, unless one is unsettled, droop freezes the ramp or VDD_CORE does not answer (R327, R328, R335).
After a trip VDD_CORE stays at the SUB0 setpoint (R337). -/
def State.sendStep (s : State) : State :=
  let goal := s.goalMv
  let d := s.pwr.die
  if s.pwr.step.isSome || s.pwr.frozen || (s.reg rPwrStatus).testBit 19 || s.trip.isSome || d == goal then s
  else { s with pwr := { s.pwr with step := some (if d < goal then min goal (d + 10) else max goal (d - 10)) } }

/-! ## The throttle log (R326, R335) -/

/-- Microseconds since a reason was last accounted moved into PWR_THR_US; the remainder stays. DESIGN CHOICE (log 79). -/
def State.accrue (s : State) (r : Nat) : State :=
  match s.pwr.reasons[r]? with
  | some t =>
    if t.active then
      let us := (s.now - t.since) / 16000
      ({ s with pwr := { s.pwr with reasons := s.pwr.reasons.setIfInBounds r { t with since := t.since + us * 16000 } } }).count (bank r (rPwr 0x038)) us
    else s
  | none => s

/-- A reason active or not: becoming active counts and records its tick. DESIGN CHOICE (log 79). -/
def State.setReason (s : State) (r : Nat) (on : Bool) : State :=
  match s.pwr.reasons[r]? with
  | some t =>
    if on && !t.active then
      let s := (s.count (bank r (rPwr 0x034)) 1).setReg (bank r (rPwr 0x03C)) s.now
      let s := s.setReg (bank r (rPwr 0x040)) (s.now / 2 ^ 32)
      { s with pwr := { s.pwr with reasons := s.pwr.reasons.setIfInBounds r ⟨true, s.now⟩ } }
    else if !on && t.active then
      let s := s.accrue r
      { s with pwr := { s.pwr with reasons := s.pwr.reasons.setIfInBounds r ⟨false, 0⟩ } }
    else s
  | none => s

/-- Reasons active while they hold the target, or the ramp, below OP_PREFERRED (R326). DESIGN CHOICE (log 79). -/
def State.logReasons (s : State) : State :=
  let pref := (s.opPhase).1
  [0, 1, 4, 5, 6].foldl (fun s r =>
    let was := match s.pwr.reasons[r]? with | some t => t.active | none => false
    s.setReason r (decide ((s.ceiling r).1 < pref) || (was && decide (s.pwr.die < pointMv pref)))) s

/-- What follows a change of a ceiling, a phase or the guarantee: the log, and the ramp. DESIGN CHOICE (log 81). -/
def State.powerOn (s : State) : State := s.logReasons.sendStep

/-! ## Ramp (R327, R333, R335) -/

/-- OP_STEP_SETTLED: the step sent has settled; the next is sent. -/
def State.stepSettled (s : State) : State :=
  match s.pwr.step with
  | some v => ({ s with pwr := { s.pwr with die := v, step := none } }).powerOn
  | none => s

/-- DROOP_FIRE: counted; the ramp freezes once a step already sent has settled; DROOP becomes active. -/
def State.droopFire (s : State) (unit : Nat) : State :=
  let s := s.count (rPwr 0x044) 1
  let s := { s with pwr := { s.pwr with droop := if s.pwr.droop.contains unit then s.pwr.droop else s.pwr.droop ++ [unit], frozen := true } }
  s.setReason 2 true

/-- DROOP_CLEAR: the droop has been clear for tDROOP_CLEAR; the ramp resumes towards the target of this moment. -/
def State.droopClear (s : State) : State :=
  (({ s with pwr := { s.pwr with droop := [], frozen := false } }).setReason 2 false).powerOn

/-! ## The cap and its shares (R328-R332) -/

/-- The links a stack keeps under the cap: the placement's STACK_MIN_LINKS, and what its SCHEDULE requirement needs at READ + WRITE shares of 1,000 MB/s (R330, R140). -/
def State.linkFloor (s : State) (n : Nat) : Nat :=
  match s.stream, s.place with
  | some st, some p =>
    let share := s.regField (blkMem + 0x400) 16 4 + s.regField (blkMem + 0x400) 20 4
    let need := ((requirements st p).filter (fun r => r.1 == 0x0600 + n)).foldl (fun a r => max a (ceilDiv r.2 (max 1 (share * 1000)))) 0
    let least := ((p.stackMap.zip p.minLinks).filter (fun x => x.1 == n)).foldl (fun a x => max a x.2) 0
    max least need
  | _, _ => 0

/-- The lanes a port keeps under the cap. -/
def State.laneFloor (s : State) (n : Nat) : Nat :=
  match s.place with
  | some p => max 2 (p.minLanes.getD n 0)
  | none => 2

/-- Bits set of a vector of links or lanes. -/
def popCount {w : Nat} (b : BitVec w) : Nat := ((List.range w).filter (fun i => b.getLsbD i)).length

/-- The highest bit set, as a vector. -/
def topBit {w : Nat} (b : BitVec w) : BitVec w :=
  match ((List.range w).filter (fun i => b.getLsbD i)).getLast? with
  | some i => BitVec.ofNat w (2 ^ i)
  | none => 0

/-- The memory share gives way: one link per stack parked (R330); answers whether any was. DESIGN CHOICE (log 101). -/
def State.parkLinks (s : State) : Bool × State :=
  let can (n : Nat) (k : Stack) : Bool := !k.retired && decide (s.linkFloor n < popCount k.rotation)
  ((s.memStacks.toList.zipIdx).any (fun x => can x.2 x.1),
   { s with memStacks := s.memStacks.mapFinIdx (fun n k _ =>
      if can n k then ({ k with rotation := k.rotation &&& ~~~(topBit k.rotation), parked := k.parked ||| topBit k.rotation } : Stack).reissue else k) })

/-- The links share gives way: one lane per port parked. DESIGN CHOICE (log 101). -/
def State.parkLanes (s : State) : Bool × State :=
  let can (n : Nat) (p : Port) : Bool := decide (s.laneFloor n < popCount p.inUse)
  ((s.ports.toList.zipIdx).any (fun x => can x.2 x.1),
   { s with ports := s.ports.mapFinIdx (fun n p _ =>
      if can n p then { p with inUse := p.inUse &&& ~~~(topBit p.inUse), parked := p.parked ||| topBit p.inUse } else p) })

/-- The compute share gives way: the CAP ceiling one point lower, not below its bound. -/
def State.lowerCap (s : State) : Bool × State :=
  let from0 := min s.pwr.cap s.opTarget
  if s.capBound < from0 then (true, { s with pwr := { s.pwr with cap := from0 - 1 } }) else (false, s)

/-- The shares in the order in which they give way: the highest priority number first, equal ones links, memory, compute. 0 compute, 1 memory, 2 links. -/
def State.shareOrder (s : State) : List Nat :=
  let pr := s.reg (rPwr 0x008)
  let prio (x : Nat) : Nat := match x with | 2 => field pr 2 2 | 1 => pr % 4 | _ => (s.opPhase).2.2
  (List.range 256).reverse.flatMap (fun v => [2, 1, 0].filter (fun x => prio x == v))

/-- One share gives way. -/
def State.give (s : State) (x : Nat) : Bool × State := match x with | 2 => s.parkLanes | 1 => s.parkLinks | _ => s.lowerCap

/-- The first share that can gives way; with none the cap stays unmet (R326, R330, R332). -/
def State.giveWay (s : State) : State :=
  match s.shareOrder.find? (fun x => (s.give x).1) with
  | some x => (s.give x).2.setRegField rPwrStatus 14 1 0
  | none => s.setRegField rPwrStatus 14 1 1

/-- Parked links back in rotation, one per stack. DESIGN CHOICE (log 101). -/
def State.unparkLinks (s : State) : Bool × State :=
  (s.memStacks.toList.any (fun k => k.parked != 0),
   { s with memStacks := s.memStacks.map (fun k => { k with rotation := k.rotation ||| topBit k.parked, parked := k.parked &&& ~~~(topBit k.parked) }) })

/-- Parked lanes back in use, one per port. DESIGN CHOICE (log 101). -/
def State.unparkLanes (s : State) : Bool × State :=
  (s.ports.toList.any (fun p => p.parked != 0),
   { s with ports := s.ports.map (fun p => { p with inUse := p.inUse ||| topBit p.parked, parked := p.parked &&& ~~~(topBit p.parked) }) })

/-- One share takes power back. DESIGN CHOICE (log 79). -/
def State.takeBack (s : State) (x : Nat) : Bool × State :=
  match x with
  | 2 => s.unparkLanes
  | 1 => s.unparkLinks
  | _ => (decide (s.pwr.cap < 9), if s.pwr.cap < 9 then { s with pwr := { s.pwr with cap := s.pwr.cap + 1 } } else s)

/-- The shares take power back in the reverse order. DESIGN CHOICE (log 79). -/
def State.giveBack (s : State) : State :=
  match s.shareOrder.reverse.find? (fun x => (s.takeBack x).1) with
  | some x => (s.takeBack x).2
  | none => s

/-- One rail of a sample (R328): its reading kept, or its last value with RAIL_STALE and PWR_RAIL_FAIL; a rail that is not PRESENT is not measured. DESIGN CHOICE (log 80). -/
def State.takeRail (s : State) (n : Nat) (r : Option (Nat × Nat × Nat)) : State :=
  if !(s.reg (bank n (rPwr 0x028))).testBit 7 then s
  else match r with
    | some (mv, _, p) => s.setReg (bank n (rPwr 0x02C)) (mv % 4096 + 2 ^ 16 * (p % 2 ^ 16))
    | none => (s.setRegField rPwrStatus 17 1 1).count (rPwr 0x048) 1

/-- Package power in mW: the sum of the rails measured. -/
def State.packageMw (s : State) : Nat :=
  (List.range 7).foldl (fun a n => if (s.reg (bank n (rPwr 0x028))).testBit 7 then a + 2 * s.regField (bank n (rPwr 0x02C)) 16 16 else a) 0

/-- The cap loop on a sample of `mw` (R326, R329, R331): held while PWR_BRAKE_N is low. -/
def State.capLoop (s : State) (mw : Nat) : State :=
  let cap := 125 * (s.reg (rPwr 0x004) % 4096)
  let hyst := field (s.reg (rPwr 0x004)) 12 4
  if s.pwr.brake then s
  else if cap < mw then ({ s with pwr := { s.pwr with capLow := 0 } }).giveWay
  else
    let s := s.setRegField rPwrStatus 14 1 0
    if mw * 100 < cap * (100 - hyst) then
      if 10 ≤ s.pwr.capLow + 1 then ({ s with pwr := { s.pwr with capLow := 0 } }).giveBack
      else { s with pwr := { s.pwr with capLow := s.pwr.capLow + 1 } }
    else { s with pwr := { s.pwr with capLow := 0 } }

/-- The current loop (R326): VDD_CORE's current against PWR_IMAX, or the regulator's warning. -/
def State.currentLoop (s : State) (amps : Nat) (warning : Bool) : State :=
  let top := s.reg (rPwr 0x014) % 1024
  if warning || decide (top < amps) then
    let c := min s.pwr.current s.opTarget
    let s := { s with pwr := { s.pwr with curLow := 0, current := if s.hardBound < c then c - 1 else s.pwr.current } }
    s.setRegField rPwrStatus 18 1 (b2n (decide (c ≤ s.hardBound)))
  else
    let s := s.setRegField rPwrStatus 18 1 0
    if amps * 100 < top * 95 then
      if 10 ≤ s.pwr.curLow + 1 then { s with pwr := { s.pwr with curLow := 0, current := min 9 (s.pwr.current + 1) } }
      else { s with pwr := { s.pwr with curLow := s.pwr.curLow + 1 } }
    else { s with pwr := { s.pwr with curLow := 0 } }

/-- POWER_SAMPLE (R328): every rail sampled, package power, the CAP and CURRENT loops, and the ramp. DESIGN CHOICE (log 80). -/
def State.powerSample (s : State) (p : Sample) : State :=
  let s := s.setRegField rPwrStatus 17 1 0
  let s := (List.range 7).foldl (fun s n => s.takeRail n (p.rails.getD n none)) s
  let core := p.rails.getD 0 none
  let s := s.setRegField rPwrStatus 19 1 (b2n (core.isNone && (s.reg (bank 0 (rPwr 0x028))).testBit 7))
  let s := s.setReg (rPwr 0x020) s.packageMw
  let s := s.capLoop s.packageMw
  let s := match core with
    | some (_, amps, _) => s.currentLoop amps p.warning
    | none => if p.warning then s.currentLoop 0 true else s
  s.powerOn

/-- PWR_CAP_WRITE (R329): the cap, held between 20 W and the envelope. -/
def State.writeCap (s : State) (w : Word) : State :=
  let v := max 160 (min (8 * s.part.envelope) (w.toNat % 4096))
  (s.setReg (rPwr 0x004) (v + 4096 * field w.toNat 12 4 + 2 ^ 16 * field w.toNat 16 1)).powerOn

/-- BRAKE_ASSERT (R331). -/
def State.brakeAssert (s : State) : State := ({ s with pwr := { s.pwr with brake := true } }).powerOn

/-- BRAKE_RELEASE (R331): the sampled loop resumes from the current point. -/
def State.brakeRelease (s : State) : State :=
  if s.pwr.brake then ({ s with pwr := { s.pwr with brake := false, cap := pointAt s.pwr.die, capLow := 0 } }).powerOn else s

/-! ## Rate matching (R338) -/

/-- The rate of the slowest tensor core whose domain is on. -/
def State.slowest (s : State) : Option Nat :=
  let rs := ((List.range 6).filter (fun n => s.power.on.getLsbD (10 * n + 9))).map (fun n => look 0 s.pwr.rates n)
  match rs with | [] => none | r :: rest => some (rest.foldl min r)

/-- MATCH_UPDATE (R338): measured rates; VDD_CORE one step of the 5 mV grid towards the target rate. DESIGN CHOICE (log 80). -/
def State.matchUpdate (s : State) (rates : List (Nat × Nat)) : State :=
  let s := { s with pwr := { s.pwr with rates := rates.foldl (fun (m : Table Nat) (r : Nat × Nat) => if r.1 < 6 then put 0 m r.1 (r.2 % 4096) else m) s.pwr.rates } }
  let want := s.reg (rPwr 0x010) % 4096
  if !(s.reg (rPwr 0x010)).testBit 12 then ({ s with pwr := { s.pwr with matched := none, matchShort := false } }).powerOn
  else match s.slowest with
    | none => s.powerOn
    | some r =>
      let top := pointMv s.opTarget
      let v := match s.pwr.matched with | some v => v | none => s.pwr.die / 5 * 5
      let v' := if r < want then min top (v + 5) else if want < r then max (pointMv s.hardBound) (v - 5) else v
      ({ s with pwr := { s.pwr with matched := some v', matchShort := decide (r < want) && decide (top ≤ v) } }).powerOn

/-! ## Temperature and trip (R336, R337) -/

/-- Whether a sensor lies in a memory stack. -/
def stackSensor (n : Nat) : Bool := decide (32 ≤ n) && decide (n ≤ 39)

/-- A sensor's throttle level in 1/8 °C (R336). -/
def State.throttleAt (s : State) (n : Nat) : Int := 8 * (if stackSensor n then s.regField (rPwr 0x018) 8 8 else s.regField (rPwr 0x018) 0 8)

/-- Readings kept; the hottest sensor, and each stack's temperature. -/
def State.readSensors (s : State) (temps : List (Nat × Int)) : State :=
  let m := temps.foldl (fun m t => put 0 m t.1 (unsigned 16 t.2)) s.pwr.sensors
  let top := m.foldl (fun (b : Option (Nat × Nat)) e => match b with | some x => if signed 16 x.2 < signed 16 e.2 then some e else b | none => some e) none
  { s with
    pwr := { s.pwr with sensors := m, hot := match top with | some e => e.1 | none => s.pwr.hot }
    memStacks := s.memStacks.mapFinIdx (fun n k _ => { k with temp := look 0 m (32 + n) }) }

/-- A sensor's trip level in 1/8 °C (R2, R336): Tj 125 °C of the compute and Solder dies on both grades, 105 °C of a stack. -/
def tripAt (n : Nat) : Int := 8 * (if stackSensor n then 105 else 125)

/-- The THERMAL ceiling's step (R326, R336): one point lower while a sensor is at or above its throttle level, one higher when every sensor is 5 °C below
it. DESIGN CHOICE (log 79). -/
def State.thermalCeiling (s : State) : State :=
  let t (e : Nat × Nat) : Int := signed 16 e.2
  let s := if s.overGrade then s.count (rPwr 0x04C) 10000 else s
  let hot := s.pwr.sensors.any (fun e => decide (s.throttleAt e.1 ≤ t e))
  let cool := s.pwr.sensors.all (fun e => decide (t e ≤ s.throttleAt e.1 - 40))
  let c := min s.pwr.thermal s.opTarget
  let s :=
    if hot then
      ({ s with pwr := { s.pwr with thermal := if s.hardBound < c then c - 1 else s.pwr.thermal } }).setRegField rPwrStatus 15 1 (b2n (decide (c ≤ s.hardBound)))
    else if cool then ({ s with pwr := { s.pwr with thermal := min 9 (s.pwr.thermal + 1) } }).setRegField rPwrStatus 15 1 0
    else s.setRegField rPwrStatus 15 1 0
  s.powerOn

/-- Every event pin output low, PPS_OUT low and every MCLK stopped (R337). -/
def State.outputsLow (s : State) : State :=
  { s with
    mclk := s.mclk.map (fun _ => ⟨0, none⟩)
    time := { s.time with
      ppsOut := 0, armed := [], pins := s.time.pins.map (fun p => { p with level := false, pulse := none, cap := none })
      gens := s.time.gens.map (fun g => { g with running := false, high := false }) } }

/-- A load in progress ends as failed (R337). DEDUCED (log 65). -/
def State.failLoad (s : State) : State :=
  if s.loader.busy then
    ({ s with loader := { s.loader with
        stage := .idle, busy := false, staged := none, todo := [], wanted := none, uploads := [], image := [], blob := [], reloadReady := false, inputsHeld := false, scrubbed := false,
        copying := false } }.setRegField 0x084 6 1 1).irq .loadFailed
  else s

/-- All 96 domains off: every scratchpad, sealed SRAM and unit state is lost (R322, R337). -/
def State.allOff (s : State) : State :=
  let s := (List.range 96).foldl (fun s d => s.switchOff d) s
  { s with
    cores := s.cores.map (fun c => { c with lines := [], claims := [], on := 0, zeroing := 0, dbgWait := false, repairs := [] })
    tokens := [], ee := s.ee.map (fun _ => Pewter.empty) }

/-- The registers' PWR_TRIP.TRIPS one higher, saturating. -/
def State.countTrip (s : State) : State := s.setRegField (rPwr 0x01C) 16 16 (min 65535 (s.regField (rPwr 0x01C) 16 16 + 1))

/-- What the comparators do when a sensor reaches its trip level (R337); SENSOR_RATE clears with the trip's reason, whatever the kill discards.
A sensor that reaches its level again during cooling or the restart returns the device to STATE 1. DEDUCED (log 65). -/
def State.trips (s : State) (sensor : Nat) (temp : Int) : State :=
  let s := { s with pwr := { s.pwr with sensors := put 0 s.pwr.sensors sensor (unsigned 16 temp) } }
  match s.trip with
  | some t => if t.state = 1 then s else { s.countTrip with trip := some { t with state := 1 } }
  | none =>
    let s := s.countTrip
    let id := match s.stream with | some st => st.id | none => 0
    let image := if s.stream.isSome then s.loader.copy else []
    let s := (s.clearGuarantee 3).failLoad
    let s := if s.stream.isSome then { s.stopMain.cutQueues with job := { s.stopMain.cutQueues.job with state := .killed } } else s
    let s := s.killInvar.allOff.outputsLow
    { s with
      trip := some ⟨1, s.now, unsigned 16 temp, sensor, id, image⟩
      pwr := { s.pwr with die := 600, step := none, droop := [], frozen := false } }.irq .thermal

/-- THERMAL_TRIP (R337): a comparator fires at its sensor's trip level; below it there is no trip (R2, R336). DEDUCED (log 65). -/
def State.thermalTrip (s : State) (sensor : Nat) (temp : Int) : State := if temp < tripAt sensor then s else s.trips sensor temp

/-- THERMAL_STEP (R326, R336): readings, the ceiling's step, and the trip of a sensor that reads its trip level or more. DESIGN CHOICE (log 79). -/
def State.thermalStep (s : State) (temps : List (Nat × Int)) : State :=
  let s := (s.readSensors temps).thermalCeiling
  match temps.find? (fun t => decide (tripAt t.1 ≤ t.2)) with
  | some t => s.trips t.1 t.2
  | none => s

/-- TRIP_COOLING (R337): every sensor is below its trip level. -/
def State.tripCooling (s : State) : State :=
  match s.trip with
  | some t => if t.state = 1 then { s with trip := some { t with state := 2 } } else s
  | none => s

/-! ## Self refresh (R246) -/

/-- A host channel. -/
def State.hostChan (s : State) (n : Nat) : HostChan := s.host.chans.toList.getD n HostChan.idle

/-- A host channel changed. -/
def State.onHost (s : State) (n : Nat) (f : HostChan → HostChan) : State :=
  if h : n < 4 then { s with host := { s.host with chans := s.host.chans.set n (f s.host.chans[n]) } } else s

/-- SELF_REFRESH_ENTRY (R246): with all four channels in it the host counts as idle. -/
def State.selfRefreshIn (s : State) (n : Nat) (deep : Bool) : State :=
  (s.onHost n (fun c => { c with selfRefresh := !deep, deepSleep := deep })).powerOn

/-- SELF_REFRESH_EXIT (R246): an exit on any channel ends the hint. -/
def State.selfRefreshOut (s : State) (n : Nat) : State :=
  (s.onHost n (fun c => { c with selfRefresh := false, deepSleep := false })).powerOn

end Sys2Proof.Machine
end

