-- ==== Sys2Proof/Machine/Load.lean ====
section
/-! DEFINITION. Machine/Load.lean: the loader: START, chunks, ABORT, drain, scrub, weights, order 8 of a full load, and a reload's swap (R49-R55). -/

namespace Sys2Proof.Machine

open Sys2Proof

/-- DEV_LOAD_CTRL, DEV_LOAD_STATUS and DEV_LOAD_DETAIL. -/
def rLoadCtrl : Nat := 0x080
def rLoadStatus : Nat := 0x084
def rLoadDetail : Nat := 0x088

/-- The loader changed. -/
def State.onLoader (s : State) (f : Loader → Loader) : State := { s with loader := f s.loader }

/-- BUSY: a load or a placement switch is in progress. -/
def State.loadBusy (s : State) : Bool := s.loader.busy || s.health.target.isSome

/-- What a load leaves of the loader when it ends: no object in progress. -/
def Loader.rest (l : Loader) : Loader :=
  { l with stage := .idle, busy := false, image := [], staged := none, todo := [], copying := false, wanted := none, blob := [], uploads := [],
           reloadReady := false, inputsHeld := false, scrubbed := false }

/-- A load ends as failed (R49): its code and detail are reported, LOAD_FAILED is raised. -/
def State.loadFailed (s : State) (f : LoadFail) (conflict : Bool) : State :=
  let s := s.onLoader Loader.rest
  let s := ((s.setRegField rLoadStatus 6 1 1).setRegField rLoadStatus 8 8 f.1).setRegField rLoadStatus 19 1 (b2n conflict)
  (s.setReg rLoadDetail f.2).irq .loadFailed

/-! ## TIME_DERIVED (R44, R62) -/

/-- The units whose data a time counter read can reach directly: a core for TIME_READ into its scratchpad, every unit that reads stack memory for one into
memory (0xFFFF), and a front end whose parameters come in MODE 1. DEDUCED (log 71). -/
def timeSeeds (ls : List ListRec) : List Nat :=
  ls.flatMap (fun l => l.cmds.flatMap (fun c =>
    match c.body with
    | .timeRead o => if o.kind = 0 then [unitField l.queue.unit] else [unitField l.queue.unit, 0xFFFF]
    | .ppParam o => if o.mode = 1 then [unitField l.queue.unit] else []
    | _ => []))

/-- Whether a reach takes in the SOURCE of a channel: its unit, or stack memory (0xFFFF) for a unit that reads it; cameras, sensor control, the time unit,
Ethernet and Invar do not. DEDUCED (log 71). -/
def reachesSource (us : List Nat) (e : Entry) : Bool :=
  us.contains (field e.source 8 14) || (us.contains 0xFFFF && ! [0x01, 0x09, 0x0A, 0x0B, 0x0C].contains (field e.source 16 6))

/-- The units at which a channel's tokens arrive: its DEST, or for a multicast channel the cores with a partition of the channel; what arrives in a stack
reaches every unit that reads it. DEDUCED (log 71). -/
def timeDests (ps : List Partition) (i : Nat) (e : Entry) : List Nat :=
  if e.multicast then (ps.filter (fun p => p.channel == i)).map (fun p => 0x0500 + p.core)
  else if field e.dest 16 6 = 0x06 then [0xFFFF]
  else if field e.dest 16 6 = 0x02 then [field e.dest 8 14, 0x0300 + field e.dest 8 8]
  else [field e.dest 8 14]

/-- Steps of reach: units at which channels of a reached SOURCE arrive, and the back end of a reached front end; bits [21:8] of endpoints. DEDUCED (log 71). -/
def timeReach (es : List Entry) (ps : List Partition) : Nat → List Nat → List Nat
  | 0, us => us
  | n + 1, us =>
    let own := (us.filter (fun u => u / 256 == 0x02)).map (· + 0x100)
    let more := es.zipIdx.flatMap (fun x => if reachesSource us x.1 then timeDests ps x.2 x.1 else [])
    timeReach es ps n (us ++ own ++ more).eraseDups

/-- The channels that a time counter read can reach, LEGAL ones after the main ones (R44, R62, R180). DEDUCED (log 71). -/
def timeMarks (st : Stream) : List Bool :=
  let es := st.entries ++ st.legalEntries
  let ls := st.programs.flatMap id ++ (match st.legal with | some l => l.lists | none => [])
  let us := timeReach es st.partitions 64 (timeSeeds ls).eraseDups
  es.map (reachesSource us)

/-- Entries marked TIME_DERIVED where they are reached, in addition to those that the stream marks. DEDUCED (log 71). -/
def markTime (es : List Entry) (marks : List Bool) : List Entry :=
  es.zipIdx.map (fun x => { x.1 with timeDerived := x.1.timeDerived || marks.getD x.2 false })

/-! ## Page table (R143, R144) -/

/-- The page-table entries of a run. -/
def PageRun.ptes (r : PageRun) : List DWord :=
  (List.range r.count).map (fun i =>
    BitVec.ofNat 64 (b2n (!r.isLazy) + 2 * b2n r.large + 4 * b2n r.readOnly + 8 * b2n r.isLazy + 16 * b2n r.retain +
      4096 * (r.phys + (if r.large then i / 512 * 512 else i))))

/-- The page table of a stream. -/
def Stream.pageTable (st : Stream) : Table DWord := st.runs.foldl (fun m r => putAll (0 : DWord) m r.virt r.ptes) []

/-- Bytes that the loader writes at a virtual address, page by page, whatever the page's permissions. -/
def State.loaderWrite (s : State) (va : Nat) (bs : List Byte) : State :=
  (pageCuts (bs.length + 1) va bs).foldl (fun s x =>
    match s.translate x.1 false with
    | .ok p => s.memWrite p x.2
    | .fault _ => s) s

/-! ## Order 8 (R51) -/

/-- The LEGAL segment in effect once the loader has met the staged one (R48, R312); a stream without LEGAL leaves Invar as it is. DEDUCED (log 68). -/
def State.legalStep (s : State) (st : Stream) : State :=
  let s1 := match st.legal with
    | some l => s.loadLegal l
    | none => s
  { s1 with stream := s1.stream.map (fun x => { x with legal := s1.inv.legal }) }

/-- The channel table as order 8 writes it: the main entries placed, those of LEGAL after them; `kept` are the LEGAL channels of a job that went on. DESIGN CHOICE (log 88). -/
def State.loadChans (s : State) (st : Stream) (p : Placement) (kept : List Chan) : List Chan :=
  let legal := match s.inv.legal with | some l => (if s.inv.running then l.entries else []) | none => []
  let all := markTime ((st.entries.map (p.entry st.own)) ++ legal) (timeMarks { st with legal := s.inv.legal })
  let fresh := all.map (fun e => Chan.ofEntry e (s.branches e).length)
  if kept.length = legal.length then fresh.take st.entries.length ++ kept else fresh

/-- Senders across a Solder link whose neighbour has not confirmed the shape hold no credits until it has (R290). -/
def State.holdCredits (s : State) (c : Chan) : Chan :=
  let out := field c.ent.source 22 10 == s.device && field c.ent.dest 22 10 != s.device && !c.ent.multicast
  if out && (match s.hopTo (field c.ent.dest 22 10) none with | some h => (s.port h.port).shape.isNone | none => false)
  then { c with recv := c.recv.map (fun r => { r with credits := 0 }) } else c

/-- Entries as bytes of the channel table in stack memory (R22). DESIGN CHOICE (log 88). -/
def State.writeChannels (s : State) (st : Stream) (es : List Entry) : State :=
  s.memWrite (s.physical st.tableBase) (es.flatMap Entry.bytes)

/-- Sensor clocks that the stream claims start, those that it does not claim go low, and one that runs at another frequency switches at the next whole second (R191). -/
def loadMclk (st : Stream) (old : Vector Mclk 16) : Vector Mclk 16 :=
  let claims := st.claims ++ (match st.legal with | some l => l.claims | none => [])
  Vector.ofFn (fun i => match claims.find? (fun c => c.kind == 4 && c.index == i.val) with
    | some c => if old[i].freq = 0 ∨ old[i].freq = c.mode then ⟨c.mode, none⟩ else ⟨old[i].freq, some c.mode⟩
    | none => ⟨0, none⟩)

/-- Staged board delays and bandwidth shares become active (R140, R242). -/
def State.activate (s : State) : State :=
  let s := (List.range 32).foldl (fun s n =>
    let r := blkTime + 0x100 + 4 * n
    s.setRegField r 16 16 (s.regField r 0 16)) s
  s.takeShares

/-- A pin as a load leaves it: an output is low from order 8 on, and no capture is armed (R227). -/
def Pin.loaded (p : Pin) : Pin := { p with level := false, cap := none, win := Window.fresh 0, seq := 0, lost := false, prev := none, pulse := none }

/-- The time unit takes its source from TOPOLOGY (R217); pins and records of a LEGAL segment that runs on go on with it (R48, R232). -/
def State.loadTime (s : State) (goesOn : Bool) : State :=
  let src := field s.timeParam 4 4
  let same := s.time.source == src
  let keeps (p : Nat) : Bool := goesOn && s.legalPin p
  let s := s.onTime (fun t => { t with
    source := src, locked := same && t.locked, valid := same && t.valid, holdover := same && t.holdover
    armed := t.armed.filter (fun a => a.holder.queue.unit == .invar)
    gens := t.gens.map (fun g => if (g.running || g.high) && keeps g.pin then g else Gen.idle)
    pins := t.pins.mapIdx (fun i p => if keeps i then p else p.loaded)
    recPorts := t.recPorts.mapIdx (fun i r => if goesOn && decide (2 ≤ i) then r else ⟨[], false⟩) })
  s.elect

/-- Queues, counters and units of the main stream at their start; Invar's go on (R48, R59). DEDUCED (log 22). -/
def State.freshRun (s : State) (st : Stream) (p : Placement) : State :=
  let lists := p.lists (st.programs.getD p.programSet [])
  let inv (k : Nat) : Bool := k / 64 == unitIdx .invar
  { s with
    job := { s.job with
      state := .running, phase := 0, lists := lists, doorbell := [], submitted := [], completed := [], dbMark := [], markNo := 0
      barriers := s.job.barriers.filter (fun e => decide (16 ≤ e.1)), pubCount := [], heldRings := [], holding := false }
    tokens := s.tokens.filter (fun e => inv e.1)
    timers := s.timers.filter (fun e => s.invarTimer e.1)
    queues := s.queues.filter (fun e => e.1 / 8 == unitIdx .invar)
    cams := Vector.replicate 16 Camera.idle, pipes := Vector.replicate 4 Pipeline.idle, trigs := []
    ee := Vector.replicate 2 Pewter.empty, relayed := [], colls := [], early := [], remotes := [], served := [], cached := []
    eth := Vector.replicate 4 EthPort.idle, mclk := loadMclk st s.mclk
    faults := ⟨[], [], s.faults.last, s.faults.seq, [], none⟩ }

/-- A stream with no placement available: SENSOR_RATE clears with reason 2 (R35), every channel is KILLED and HOST_IRQ_N asserted (R46). -/
def State.noPlacement (s : State) : State :=
  let s := s.clearGuarantee 2
  let s := { s with job := { s.job with state := .killing } }.stopMain
  s.irq .placement

/-- The PPS of the default stream: PG0 on EVT0, rising at every whole second of device time from now on, 10 ms high (R56). DESIGN CHOICE (log 95). -/
def State.defaultPps (s : State) : State :=
  s.onGen 0 (fun _ => ⟨true, 0, ceilDiv s.now second * second, second / 100, second, 1, 0, 0, false⟩)

/-- Order 8 of a full load: channel table, placement, programs, check 16, DONE (R51); the inputs open. A retirement that came since
order 3 is applied here (R348). DESIGN CHOICE (log 69); DEDUCED (log 70). -/
def State.finishLoad (s : State) (st : Stream) : State :=
  let s := s.takeShares
  let s := { s with placement := (s.choose st).getD s.placement }
  match st.placements[s.placement]? with
  | none => s
  | some p =>
    let t := s.legalStep st
    let goesOn := s.inv.running && t.inv.running && s.sec.draws == t.sec.draws
    let kept := if goesOn then s.chans.drop st.entries.length else []
    let s := ((t.freshRun st p).loadTime goesOn).activate
    let chans := s.loadChans st p kept
    let s := { s with chans := chans.map s.holdCredits, snap := ⟨false, false, false, List.replicate 16 0⟩ }
    let s := s.writeChannels st (chans.map (·.ent))
    let s := (s.startLists.phaseDomains 0 s.power.retired).resumeInvar
    let s := s.compareFloor 1
    let src : Nat := s.loader.source
    let s := if src = 3 then s.defaultPps else s
    let s := s.onLoader (fun l => { l.rest with copy := l.image, origin := l.source, fallback := [] })
    let s := { s with boot := { s.boot with isDefault := src == 3, flashSlot := if src ≤ 1 then src + 1 else 0 } }
    let s : State := ((s.setRegField rLoadStatus 5 1 1).irq .loadDone).powerOn
    if (s.choose st).isNone then s.noPlacement else s

/-! ## A PROGRAM_RELOAD's swap (R52) -/

/-- Weights written over those in place; a SOURCE 2 weight is already there. -/
def State.copyWeight (s : State) (w : WeightRec) (bs : List Byte) : State :=
  if w.source = 2 then s
  else
    let s := w.pages.foldl (fun s p => if pteLazy (s.pte p) && !pteValid (s.pte p) then s.validate (s.pageKey p) else s) s
    s.loaderWrite w.destAddr bs

/-- Channels that a time counter read of the new lists can reach marked TIME_DERIVED, in addition to those marked already (R44, R62). -/
def State.remarkTime (s : State) (st : Stream) : State :=
  let marks := timeMarks { st with legal := s.inv.legal }
  (List.range s.chans.length).foldl (fun s i =>
    if marks.getD i false && !(s.chan i).ent.timeDerived
    then (s.onChan i (fun c => { c with ent := { c.ent with timeDerived := true } })).syncEntry i else s) s

/-- A reload takes effect: lists, schedule and weights are replaced, unit counters are zero, check 16 runs, and the inputs open. A killed
stream is left in the state that REARM gives (R73); its placement is available, so nothing that a retirement put off remains. DEDUCED (log 70); DEDUCED (log 89). -/
def State.swapReload (s : State) (st : Stream) : State :=
  match st.placements[s.placement]? with
  | none => s
  | some p =>
    let s := { s with stream := some { st with legal := s.inv.legal } }
    let s := st.weights.foldl (fun s w => match s.weightBytes w with | some bs => s.copyWeight w bs | none => s) s
    let s := { s with
      job := { s.job with lists := p.lists (st.programs.getD p.programSet []), holding := false }
      tokens := s.tokens.filter (fun e => e.1 / 64 == unitIdx .invar) }
    let s := ((s.remarkTime st).startLists.phaseDomains 0 s.power.retired).compareFloor 1
    let s := s.onLoader Loader.rest
    let s : State := ((s.setRegField rLoadStatus 5 1 1).irq .loadDone).powerOn
    if s.job.state = .killed then State.rearm { s with health := { s.health with waiting := [] } } else s

/-- KILL_COMPLETE, with the reload that waits for a stream end, which takes effect on a killed stream (R73). DEDUCED (log 89). -/
def State.killComplete (s : State) : State :=
  let s := s.killDone
  match s.loader.staged with
  | some st => if s.job.state = .killed && s.loader.reloadReady then s.swapReload st else s
  | none => s

/-! ## Weights (R49, R50, R54) -/

/-- The first weight of a list that is not in order, with what its check says. -/
def State.firstWeight (s : State) (reload : Bool) (st : Stream) : List WeightRec → Option (List WeightRec × WeightCheck)
  | [] => none
  | w :: ws =>
    match s.weightCheck reload st w with
    | .ok => s.firstWeight reload st ws
    | r => some (w :: ws, r)

/-- The loader names a weight in DEV_LOAD_REQ and asks the host for it; a staged token is discarded (R54, R55). -/
def State.wantWeight (s : State) (ws : List WeightRec) : State :=
  let id := match ws.head? with | some w => w.id | none => 0
  let s := s.onLoader (fun l => { l with todo := ws, wanted := some id, blob := [] })
  { s with upload := { s.upload with staged := 0 } }.irq .weightWanted

/-- Whether Invar's job goes on through a full load (R48): it runs, and the staged stream has no segment or one with the DIGEST in effect. -/
def State.invarGoesOn (s : State) (st : Stream) : Bool :=
  s.inv.running && (match st.legal with | some l => s.inv.effect == l.digest | none => true)

/-- Checks 1 to 15 have passed: a full load closes inputs and drains (order 3), a reload waits for the stream end, or swaps at once under a
killed stream. -/
def State.loadPassed (s : State) (st : Stream) : State :=
  let s := s.onLoader (fun l => { l with todo := [], uploads := if st.reload then l.uploads else [], wanted := none })
  if st.reload then
    if s.job.state = .killed then s.swapReload st else s.onLoader (fun l => { l with reloadReady := true })
  else
    let s := s.onLoader (fun l => { l with stage := .draining, inputsHeld := true })
    let s := (s.setRegField rGuarantee 1 1 0).pauseInvar
    { s with chans := s.chans.mapIdx (fun i c =>
        if [0, 1].contains c.ent.state && (s.isMain i || !s.invarGoesOn st) then { c with ent := { c.ent with state := 3 } } else c) }

/-- Check 15 from where it stands; a failure is handed back. -/
def State.hashOn (s : State) (st : Stream) : Option LoadFail × State :=
  match s.firstWeight st.reload st s.loader.todo with
  | none => (none, s.loadPassed st)
  | some (_, .failed f) => (some f, s)
  | some (ws, _) => (none, s.wantWeight ws)

/-! ## START and the boot sources (R49, R53) -/

/-- The image of a source; none where the flash directory is absent or has no entry. DESIGN CHOICE (log 72). -/
def State.sourceImage (s : State) (src : Nat) : Option (List Byte) :=
  if src = 3 then some Sys2Proof.Config.defaultImage
  else (s.region (3 + src)).map (fun r =>
    let n := u32 (s.flashBytes r.1 12) 8
    s.flashBytes r.1 (if n ≤ r.2 then n else r.2))

/-- The checks run on an image; a failure is handed back. The seal switch is sampled at check 10 (R312). -/
def State.checkImage (s : State) (img : List Byte) (rom : Bool) : Option (LoadFail × Bool) × State :=
  match (if rom then s.romChecks img else s.runChecks s.otp img) with
  | .error f => (some f, s)
  | .ok (st, n) =>
    let s := s.onLoader (fun l => { l with
      stage := .checking, image := img, staged := some st, placement := n, todo := st.weights, calLow := s.inv.cal, uploads := [], copying := false })
    match s.hashOn st with
    | (some f, s) => (some (f, false), s)
    | (none, s) => (none, s)

/-- What START clears: ERROR, AFTER_DRAIN, DRAIN_FORCED, INVAR_CONFLICT and DEV_LOAD_DETAIL. DESIGN CHOICE (log 66). -/
def State.clearStatus (s : State) : State :=
  ((s.setRegField rLoadStatus 7 9 0).setRegField rLoadStatus 18 2 0).setReg rLoadDetail 0

/-- A load begins; the interleave in effect decides which pages are bootstrap pages for it (R251). -/
def State.openLoad (s : State) (src : Nat) (rest : List Nat) : State :=
  s.onLoader (fun l => { l.rest with busy := true, stage := .checking, source := src, fallback := rest, map := s.host.active })

/-- Loads from flash or ROM tried in order; each failure is reported before the next source is tried (R53). -/
def State.trySources (s : State) : List Nat → State
  | [] => s
  | src :: rest =>
    let s := s.openLoad src rest
    match s.sourceImage src with
    | none => (s.loadFailed (1, 0) false).trySources rest
    | some img =>
      match s.checkImage img (src == 3) with
      | (some (f, c), s) => (s.loadFailed f c).trySources rest
      | (none, s) => s

/-- A load that has failed after its start: the next boot source is tried (R53). -/
def State.failAndGoOn (s : State) (f : LoadFail) (conflict : Bool) : State :=
  let rest := s.loader.fallback
  (s.loadFailed f conflict).trySources rest

/-- START (R49, R54). -/
def State.startLoad (s : State) (src : Nat) : State :=
  let s := s.clearStatus
  if src = 2 then
    let s := (s.openLoad 2 []).onLoader (fun l => { l with stage := .receiving })
    { s with upload := { s.upload with staged := 0 } }
  else s.trySources [src]

/-- ABORT (R54): ends a load before order 3. DESIGN CHOICE (log 66). -/
def State.abortLoad (s : State) : State :=
  let before := [LoadStage.receiving, .checking].contains s.loader.stage && !s.loader.inputsHeld
  if s.loader.busy && before then s.onLoader (fun l => { l.rest with fallback := [] }) else s

/-- A write of DEV_LOAD_CTRL: SOURCE and DRAIN_TIMEOUT are stored, ABORT ends a load before order 3, START starts one unless BUSY.
No stream loads under recovery or during a trip (R337, R352). DESIGN CHOICE (log 66). -/
def State.loadCtrl (s : State) (w : Nat) : State :=
  let busy := s.loadBusy
  let s := (s.setRegField rLoadCtrl 2 2 (field w 2 2)).setRegField rLoadCtrl 8 8 (max 1 (field w 8 8))
  let s := if w.testBit 1 then s.abortLoad else s
  if w.testBit 0 && !busy && !s.boot.recovery && s.boot.up && s.trip.isNone then s.startLoad (field w 2 2) else s

/-! ## Drain, scrub, weights (R50, R51) -/

/-- The stream that follows a failure after the drain: the ROM default stream, or none under a host-upload mode of BOOT_SEL (R50): 0b010, and 0b011, which
waits for a host upload once flash has failed. DESIGN CHOICE (log 66). -/
def State.afterDrainFail (s : State) (f : LoadFail) : State :=
  let s := (s.loadFailed f false).setRegField rLoadStatus 7 1 1
  let s := { s with stream := none, chans := s.chans.drop (match s.stream with | some x => x.entries.length | none => 0), pages := [], regs := (s.setRegField rGuarantee 0 1 0).regs, boot := { s.boot with isDefault := false, flashSlot := 0 } }
  if [2, 3].contains (s.boot.straps % 8) then s else s.trySources [3]

/-- Weights copied and hashed again, one by one; a SOURCE 1 weight is asked for again. DESIGN CHOICE (log 67). -/
def State.copyWeights (s : State) (st : Stream) : List WeightRec → State
  | [] => s.onLoader (fun l => { l with stage := .starting, todo := [], copying := false, uploads := [] })
  | w :: ws =>
    match s.weightBytes w with
    | none => (s.wantWeight (w :: ws)).onLoader (fun l => { l with copying := true })
    | some bs =>
      if bs.length == w.length && sha384 bs == w.digest then (s.copyWeight w bs).copyWeights st ws else s.afterDrainFail (0x13, w.id)

/-- Orders 6 and 7: window pages and scratchpads scrubbed, the claimed domains switched on and the others off (R323), that of Invar on where a segment runs (R312), mapped pages zeroed, weights copied. DESIGN CHOICE (log 67). -/
def State.scrubAndCopy (s : State) (st : Stream) : State :=
  let s := s.cutQueues
  -- the channels of a LEGAL job that is not known to end keep what they hold, after the entries of the new stream
  let kept := if s.inv.running then s.chans.drop (match s.stream with | some x => x.entries.length | none => 0) else []
  let s := { s with
    stream := some { st with legal := s.inv.legal }, placement := s.loader.placement
    chans := st.entries.map (fun _ => Chan.ofEntry Entry.unused 1) ++ kept
    faults := { s.faults with fills := [], request := none }
    job := { s.job with state := .noStream, lists := [], phase := 0, doorbell := [], barriers := s.job.barriers.filter (fun e => decide (16 ≤ e.1)) }
    window := [], linkErr := [], winErr := []
    cores := s.cores.mapFinIdx (fun i c _ => if i = 6 then c else { c with lines := [], claims := [], dbgWait := false })
    pages := st.pageTable }
  let s := s.onLoader (fun l => { l with stage := .weights, scrubbed := true })
  let s := match st.placements[s.placement]? with
    | some p =>
      (List.range 96).foldl (fun (s : State) d =>
        if d = 93 then s
        else if (if d = 92 then s.invarRuns st.legal else domainClaimed st p d && !s.power.retired.getLsbD d) then s.switchOn d
        else s.switchOff d) s
    | none => s
  let s := st.runs.foldl (fun s r => s.memZero (s.physical (4096 * r.phys)) (4096 * r.count)) s
  s.copyWeights st st.weights

/-- DRAIN_COMPLETE (R51): tokens in flight have arrived; fills that are open are abandoned. DEDUCED (log 26); DESIGN CHOICE (log 67). -/
def State.drained (s : State) : State :=
  match s.loader.stage, s.loader.staged with
  | .draining, some st =>
    let s1 : State := { s with chans := s.chans.map (fun (c : Chan) => if c.ent.state = 3 then { c with ent := { c.ent with state := 5 } } else c) }
    s1.scrubAndCopy st
  | _, _ => s

/-- DRAIN_TIMEOUT (R51): what remains is killed and counted, DRAIN_FORCED is set, and the load goes on as after the drain. -/
def State.drainForced (s : State) : State :=
  match s.loader.stage, s.loader.staged with
  | .draining, some st => (((if s.stream.isSome then s.stopMain else s).setRegField rLoadStatus 18 1 1).scrubAndCopy st)
  | _, _ => s

/-- LOAD_FINISH (R51): order 8, once scrub and weights are done; or a reload's swap at the stream end. -/
def State.loadFinish (s : State) : State :=
  match s.loader.stage, s.loader.staged with
  | .starting, some st => if st.reload then (if s.job.holding then s.swapReload st else s) else s.finishLoad st
  | _, _ => s

/-! ## Chunks (R54, R55) -/

/-- READY: neither a fill nor an attestation report holds the buffer. -/
def State.chunkReady (s : State) : Bool := s.faults.request.isNone && !s.sec.held

/-- A chunk of the stream image; LAST starts check 1. -/
def State.imageChunk (s : State) (bs : List Byte) (last : Bool) : State :=
  let img := s.loader.image ++ bs
  let tooLong := decide (2 ^ 26 < img.length) || (decide (12 ≤ img.length) && decide (u32 img 8 < img.length))
  if tooLong then s.failAndGoOn (1, 8) false
  else
    let s := s.onLoader (fun l => { l with image := img })
    if last then
      match (s.onLoader (fun l => { l with stage := .checking })).checkImage img false with
      | (some (f, c), s) => s.failAndGoOn f c
      | (none, s) => s
    else s

/-- A chunk of the weight that is wanted; LAST leads to its hash. -/
def State.weightChunk (s : State) (id : Nat) (bs : List Byte) (last : Bool) : State :=
  let blob := s.loader.blob ++ bs
  if last then
    let s := s.onLoader (fun l => { l with wanted := none, blob := [], uploads := l.uploads.filter (fun u => u.1 != id) ++ [(id, blob)] })
    match s.loader.staged with
    | none => s
    | some st =>
      if s.loader.copying then s.copyWeights st s.loader.todo
      else match s.hashOn st with
        | (some f, s) => s.failAndGoOn f false
        | (none, s) => s
  else s.onLoader (fun l => { l with blob := blob })

/-- A chunk of a recovery image; LAST applies R351 (R352). -/
def State.firmwareChunk (s : State) (bs : List Byte) (last : Bool) : State :=
  let img := s.loader.image ++ bs
  if last then
    let s := s.onLoader (fun l => { l with image := [] })
    match s.recover img with
    | (0, s) => s
    | (e, s) => (s.setRegField rLoadStatus 6 1 1).setRegField rLoadStatus 8 8 e
  else s.onLoader (fun l => { l with image := img })

/-- DEV_LOAD_CHUNK (R54, R55): the bytes in the buffer belong to whoever owns it; ignored while READY is 0. -/
def State.loadChunk (s : State) (w : Nat) : State :=
  let n := w % 2 ^ 17
  if !s.chunkReady || n = 0 || decide (65536 < n) then s
  else
    let last := w.testBit 30
    let bs := lookAll (0 : Byte) s.upload.data 0 n
    if s.boot.recovery then s.firmwareChunk bs last
    else if s.loader.stage = .receiving then s.imageChunk bs last
    else match s.loader.wanted with
      | some id => s.weightChunk id bs last
      | none =>
        if s.upload.staged + n ≤ 17136 then { s with upload := { s.upload with staged := s.upload.staged + n } } else s

end Sys2Proof.Machine
end

