-- ==== Sys2Proof/Machine/Security.lean ====
section
/-! DEFINITION. Machine/Security.lean: signed tokens, the anti-rollback ladder, attestation and the JTAG port (R353-R358). -/

namespace Sys2Proof.Machine

open Sys2Proof

/-- The security engine changed. -/
def State.onSec (s : State) (f : Security → Security) : State := { s with sec := f s.sec }

/-- SEC_TOKEN_STATUS. -/
def rTokenStatus : Nat := blkSec + 0x064

/-! ## Tokens (R355) -/

/-- A generation of a slot. -/
def Otp.gen (o : Otp) (slot g : Nat) : Generation :=
  (o.slots.toList.getD slot (Vector.replicate 4 Generation.empty)).toList.getD g Generation.empty

/-- A generation of a slot set. -/
def Otp.setGen (o : Otp) (slot g : Nat) (v : Generation) : Otp :=
  if h : slot < 3 then
    if k : g < 4 then { o with slots := o.slots.set slot (o.slots[slot].set g v) } else o
  else o

/-- The lowest empty generation of a slot. -/
def Otp.lowestEmpty (o : Otp) (slot : Nat) : Option Nat := (List.range 4).find? (fun g => (o.gen slot g).state == 0)

/-- Fields of a token. -/
def tokType (t : List Byte) : Nat := u8 t 6
def tokSlot (t : List Byte) : Nat := u8 t 7
def tokPerms (t : List Byte) : Nat := u32 t 0x20
def tokGen (t : List Byte) : Nat := u8 t 0x24

/-- REASON 1: a token whose form is not that of the token table, or whose signature block is malformed. -/
def tokenFormed (t : List Byte) : Bool :=
  let k := tokType t
  t.length == 17136 && u32 t 0 == 0x4E4B_4F54 && u16 t 4 == 1 && decide (1 ≤ k) && decide (k ≤ 4) && decide (tokSlot t ≤ 2) &&
  ((k == 2 || k == 3) || (tokSlot t == 0 && tokGen t == 0)) && (k == 1 || zeroAt t 0x10 16) &&
  (match k with | 1 => decide (tokPerms t < 8) | 4 => decide (tokPerms t < 4) | _ => tokPerms t == 0) && decide (tokGen t ≤ 3) &&
  zeroAt t 0x25 11 && (k == 2 || zeroAt t 0x30 432) && zeroAt t 0x1E0 32 && sigClean (t.drop 512)

/-- REASON 4: whether the table of token signers allows the slot that signed. -/
def tokenSigner (t : List Byte) : Bool :=
  let by0 := sigSlot (t.drop 512)
  match tokType t, tokSlot t with
  | 1, _ => decide (by0 ≤ 1) && !((tokPerms t).testBit 2 && by0 != 0)
  | 2, 1 => by0 == (if tokGen t = 0 then 0 else 1)
  | 2, 2 => by0 == 1
  | 3, 0 => by0 == 0
  | 3, _ => by0 == 1
  | 4, _ => by0 == 1
  | _, _ => false

/-- REASONs 7, 8, 10 and the further rules of the signer table. DESIGN CHOICE (log 73); DESIGN CHOICE (log 74). -/
def Otp.tokenRule (o : Otp) (t : List Byte) : Nat :=
  let slot := tokSlot t
  let g := o.gen slot (tokGen t)
  match tokType t with
  | 2 =>
    if g.state = 1 then 7
    else match o.lowestEmpty slot with
      | none => 10
      | some n => if n = tokGen t then 0 else 4
  | 3 =>
    if g.state ≠ 1 then 7
    else if slot = 0 && ((List.range 4).filter (fun n => (o.gen 0 n).state == 1)).length == 1 then 8
    else 0
  | 4 => if (!(tokPerms t).testBit 0 || o.vendorOff) && (!(tokPerms t).testBit 1 || o.invarOff) then 7 else 0
  | _ => 0

/-- REASON for a token, 0 when it is accepted. DESIGN CHOICE (log 73). -/
def State.tokenReason (s : State) (t : List Byte) : Nat :=
  let b := t.drop 512
  let m := sha384 (t.take 512)
  if !tokenFormed t then 1
  else if u64 t 8 ≠ Sys2Proof.Config.serial then 2
  else if tokType t = 1 && slice t 0x10 16 != s.sec.nonce then 3
  else if !tokenSigner t then 4
  else match s.otp.active (sigSlot b) with
    | none => 5
    | some g => if !rsaOk g m b then 5 else if !slhOk g m b then 6 else s.otp.tokenRule t

/-- What an accepted token does; enrolments, revocations and policy bits are burnt (R355). DESIGN CHOICE (log 74). -/
def State.applyToken (s : State) (t : List Byte) : State :=
  match tokType t with
  | 1 => s.onSec (fun c => { c with unlocked := true, perms := tokPerms t, signer := sigSlot (t.drop 512) })
  | 2 => { s with otp := s.otp.setGen (tokSlot t) (tokGen t) ⟨1, slice t 0x30 384, slice t 0x1B0 48⟩ }
  | 3 => { s with otp := s.otp.setGen (tokSlot t) (tokGen t) { s.otp.gen (tokSlot t) (tokGen t) with state := 2 } }
  | _ => { s with otp := { s.otp with vendorOff := s.otp.vendorOff || (tokPerms t).testBit 0, invarOff := s.otp.invarOff || (tokPerms t).testBit 1 } }

/-- A fresh debug nonce (R358). DESIGN CHOICE (log 73). -/
def State.freshNonce (s : State) : State :=
  s.onSec (fun c => { c with nonce := slice (Sys2Proof.Config.random c.draws) 0 16, draws := c.draws + 1 })

/-- The end of a token's check: SEC_TOKEN_STATUS, and a fresh nonce after every type 1 token. DESIGN CHOICE (log 73). -/
def State.tokenResult (s : State) (t : List Byte) (reason : Nat) : State :=
  let s := if reason = 0 then s.applyToken t else s
  let s := ((s.setRegField rTokenStatus 1 2 (if reason = 0 then 1 else 2)).setRegField rTokenStatus 4 4 reason).setRegField rTokenStatus 8 3 (tokType t)
  if tokType t = 1 then s.freshNonce else s

/-- Whether a token that arrives now is refused with REASON 9. -/
def State.tokenBusy (s : State) : Bool :=
  s.sec.token.isSome || s.loader.stage == .receiving || s.faults.request.isSome || s.sec.held || s.trip.isSome

/-- A token arrives, from the upload buffer or through UNLOCK. DESIGN CHOICE (log 72). -/
def State.tokenIn (s : State) (t : List Byte) (uploaded : Bool) : State :=
  if s.tokenBusy then s.tokenResult t 9 else s.onSec (fun c => { c with token := some ⟨t, uploaded⟩ })

/-- SEC_TOKEN_CTRL: SUBMIT takes the staged token. -/
def State.tokenCtrl (s : State) (w : Nat) : State :=
  if w.testBit 0 then
    let t := lookAll (0 : Byte) s.upload.data 0 s.upload.staged
    ({ s with upload := { s.upload with staged := 0 } }).tokenIn t true
  else s

/-- TOKEN_DONE: the check ends. -/
def State.tokenDone (s : State) : State :=
  match s.sec.token with
  | some c => (s.onSec (fun c => { c with token := none })).tokenResult c.data (s.tokenReason c.data)
  | none => s

/-! ## Anti-rollback (R353) -/

/-- The ladder burnt up to the running firmware's SEC_VERSION. -/
def State.burnLadder (s : State) : State := { s with otp := { s.otp with ladder := max s.otp.ladder (min 64 s.boot.version) } }

/-- SEC_ROLLBACK: COMMIT by a running firmware. -/
def State.rollbackCtrl (s : State) (w : Nat) : State := if w.testBit 15 && s.boot.up then s.burnLadder else s

/-- At a start, both flash images valid at the running firmware's version or higher burn the ladder. -/
def State.burnAtStart (s : State) : State :=
  let ok (k : Nat) : Bool := match s.flashImage k with | some img => s.otp.imageFault img == 0 && decide (s.boot.version ≤ fwVersion img) | none => false
  if ok 1 && ok 2 then s.burnLadder else s

/-! ## Identity words -/

/-- DEV_ID. -/
def State.devId (s : State) : Nat :=
  s.part.memStacks + 16 * (s.part.solderPorts / 4) + 64 * b2n s.part.gradeI + 256 * s.part.variant + 65536 * (Sys2Proof.Config.siliconRev % 256)

/-- SEC_SLOTS. -/
def State.slotsWord (s : State) : Nat :=
  let bits (slot st : Nat) : Nat := (List.range 4).foldl (fun a g => a + if (s.otp.gen slot g).state == st then 2 ^ g else 0) 0
  (List.range 3).foldl (fun a n => a + 2 ^ (8 * n) * (bits n 1 + 16 * bits n 2)) 0 + 2 ^ 24 * b2n s.otp.vendorOff + 2 ^ 25 * b2n s.otp.invarOff

/-- STREAM_ID of the loaded stream; zero with none. -/
def State.streamId (s : State) : Nat :=
  match s.stream with
  | some st => if s.job.state = .noStream then 0 else st.id
  | none => 0

/-! ## Attestation (R357) -/

/-- Bytes 0x000-0x1FF of a report. -/
def State.reportBody (s : State) : List Byte :=
  let g := s.reg rGuarantee
  let flags := b2n s.sec.unlocked + 2 * b2n (s.sec.perms.testBit 2) + 4 * b2n s.boot.recovery + 8 * (g % 2) + 16 * field g 1 1 + 32 * field g 2 1 +
    64 * b2n s.otp.vendorOff + 128 * b2n s.otp.invarOff + 256 * b2n s.inv.running + 512 * b2n (!s.inv.cal)
  let keyHash (n : Nat) : List Byte := match s.otp.active n with | some k => sha384 (k.modulus ++ k.slh) | none => List.replicate 48 0
  let nonce := (List.range 8).flatMap (fun i => leBytes 4 (s.reg (blkSec + 0x080 + 4 * i)))
  let m := match s.stream with | some st => if s.job.state = .noStream then [] else st.message | none => []
  leBytes 4 0x5453_5441 ++ leBytes 2 1 ++ leBytes 2 flags ++ nonce ++ leBytes 8 Sys2Proof.Config.serial ++ leBytes 4 s.devId ++ leBytes 4 s.boot.release ++
  slice s.boot.measure 0 48 ++ leBytes 1 s.otp.ladder ++ leBytes 1 s.boot.version ++ leBytes 2 0 ++ leBytes 4 s.slotsWord ++
  keyHash 0 ++ keyHash 1 ++ keyHash 2 ++ leBytes 8 s.streamId ++ slice m 0 48 ++ slice s.inv.effect 0 48 ++
  sha384 (Sys2Proof.Config.publicKeys 1) ++ leBytes 1 s.placement ++ leBytes 1 0 ++ leBytes 2 s.otp.audit ++
  leBytes 12 s.power.retired.toNat ++ leBytes 8 s.now ++ sha384 (Sys2Proof.Config.publicKeys 0) ++ List.replicate 32 0

/-- A report: the body and both signatures of the identity key over its SHA-384. -/
def reportOf (body : List Byte) : List Byte :=
  let m := sha384 body
  body ++ slice (Sys2Proof.Config.signature 0 0 m) 0 384 ++ slice (Sys2Proof.Config.signature 1 0 m) 0 35664

/-- Whether the buffer belongs to an upload or a fill. -/
def State.bufferBusy (s : State) : Bool := s.loader.stage == .receiving || s.loader.wanted.isSome || s.faults.request.isSome

/-- Signing begins with a snapshot once the buffer is free. -/
def State.beginReport (s : State) : State :=
  if s.bufferBusy then s.onSec (fun c => { c with waiting := true })
  else s.onSec (fun c => { c with waiting := false, snapshot := some s.reportBody })

/-- A START that waits begins once the buffer is free. DESIGN CHOICE (log 76). -/
def State.freeBuffer (s : State) : State := if s.sec.waiting && s.sec.snapshot.isNone then s.beginReport else s

/-- SEC_ATTEST_CTRL: RELEASE frees the buffer, START takes a snapshot unless BUSY. DESIGN CHOICE (log 76). -/
def State.attestCtrl (s : State) (w : Nat) : State :=
  let s := if w.testBit 1 then (s.onSec (fun c => { c with held := false })).freeBuffer else s
  if w.testBit 0 && s.sec.snapshot.isNone then s.beginReport else s

/-- ATTEST_DONE: the report is placed in the upload buffer and held; a staged token is discarded (R55). DESIGN CHOICE (log 76). -/
def State.attestDone (s : State) : State :=
  match s.sec.snapshot with
  | some b =>
    if s.bufferBusy then s
    else
      ({ s with upload := ⟨putAll (0 : Byte) s.upload.data 0 (reportOf b), 0⟩ }).onSec
        (fun c => { c with snapshot := none, held := true, heldAt := s.now })
  | none => s

/-- ATTEST_TIMEOUT: 1 s after VALID the buffer is free. -/
def State.attestTimeout (s : State) : State := (s.onSec (fun c => { c with held := false })).freeBuffer

/-! ## JTAG (R358) -/

/-- The instruction the JTAG port takes for a code: 0 BYPASS, 1 IDCODE, 2 SAMPLE/PRELOAD, 3 UNLOCK, 4 DBG_STATUS, 5 EXTEST, 6 INTEST, 7 CLAMP;
every other, and one not granted, acts as BYPASS. DESIGN CHOICE (log 75). -/
def State.jtagTakes (s : State) (code : Nat) : Nat :=
  if code ≤ 4 then code
  else if code ≤ 7 && s.sec.unlocked && s.sec.perms.testBit 0 && s.stream.isNone then code
  else 0

/-- IDCODE. DESIGN CHOICE (log 75). -/
def idCode : Nat := field Sys2Proof.Config.siliconRev 4 4 * 2 ^ 28 + 0x0648_00F5

/-- JTAG_INSTRUCTION: the instruction takes effect; UNLOCK delivers the token shifted in. -/
def State.jtagIn (s : State) (code : Nat) (data : List Byte) : State :=
  let k := s.jtagTakes code
  let s := s.onSec (fun c => { c with jtag := k })
  if k = 3 then s.tokenIn data false else s

end Sys2Proof.Machine
end

