-- ==== Sys2Proof/Machine/Stack.lean ====
section
/-! DEFINITION. Machine/Stack.lean: stack links, scrub, spares, background tests, retirement and placement switches (R46, R47, R277-R282, R341-R348). -/

namespace Sys2Proof.Machine

open Sys2Proof

/-! ## Stacks and their links (R277-R279) -/

/-- Counters of a stack: corrected errors, uncorrectable errors, CRC failures, reissues, retrainings. -/
def cStk (n off : Nat) : Nat := bank n (blkMem + off)

/-- A link leaves rotation: a parked link, or a free spare, takes its place at once (R330), and its accesses are reissued on the links that then work (R278). -/
def Stack.leave (k : Stack) (link : Nat) (now : Nat) : Stack :=
  let b := linkBit link
  let rest := k.rotation &&& ~~~b
  let k := { k with leaves := k.leaves ++ [(link, now)] }
  (if k.parked ≠ 0 then { k with rotation := rest ||| lowLink k.parked, parked := k.parked &&& ~~~(lowLink k.parked) }
  else if k.spare ≠ 0 then { k with rotation := rest ||| lowLink k.spare, spare := k.spare &&& ~~~(lowLink k.spare) }
  else { k with rotation := rest }).reissue

/-- Ticks in 24 hours. -/
def dayTicks : Nat := 24 * 3600 * second

/-- Times a link has left rotation within 24 hours (R279). -/
def Stack.recentLeaves (k : Stack) (link now : Nat) : Nat := (k.leaves.filter (fun x => x.1 == link && decide (now - x.2 ≤ dayTicks))).length

/-! ## Placements after a retirement (R46, R47, R345-R348) -/

/-- Orders 3 to 8 of a full load. -/
def State.loadCommits (s : State) : Bool := s.loader.busy && [LoadStage.draining, .scrubbing, .weights, .starting].contains s.loader.stage

/-- R345 step 2: availability is recomputed. The placement in use stays where it is available; another is switched to; with none, every channel is killed.
A trip, a load past order 3 and a killed stream put the step off. -/
def State.recheck (s : State) : State :=
  match s.stream with
  | none => s
  | some st =>
    if s.trip.isSome || s.loadCommits then s
    else if s.job.state = .killing || s.job.state = .killed then { s with health := { s.health with waiting := [1] } }
    else if (match s.place with | some p => s.available st p | none => true) then s
    else match s.choose st with
      | none => s.noPlacement
      | some m => { s with health := { s.health with target := some m } }

/-- Channels with their endpoints under the placement in effect; what they hold carries over (R47). The channels of a unit that either placement leaves unused
start IDLE (R46). DESIGN CHOICE (log 78). -/
def State.replaceChans (s : State) (st : Stream) (p : Placement) : State :=
  { s with chans := s.chans.zipIdx.map (fun x =>
      match st.entries[x.2]? with
      | some e =>
        let ent := { x.1.ent with source := (p.entry st.own e).source, dest := (p.entry st.own e).dest }
        if x.1.ent.unplaced || ent.unplaced then { Chan.ofEntry { ent with state := 0 } x.1.recv.length with tokens := x.1.tokens, started := x.1.started, last := x.1.last }
        else { x.1 with ent := ent }
      | none => x.1) }

/-- Commands of surviving units whose work is finished complete before the switch (R47). -/
def State.finishPasses (s : State) : State :=
  s.mainQueues.foldl (fun s q =>
    if s.gone (unitField q.unit) then s
    else ((s.queue q).prog.map (·.seq)).foldl (fun s n =>
      match s.prog ⟨q, n⟩ with
      | some e => if e.worked && !e.done then s.completeCmd ⟨q, n⟩ else s
      | none => s) s) s

/-- PLACEMENT_SWITCH (R47): what surviving units have finished completes; endpoints, queues and the program set of the new placement take effect; the lists of the current phase start again, so the
interrupted pass runs again. Channel state, frame numbers and counters carry over. DESIGN CHOICE (log 78). -/
def State.placementSwitch (s : State) : State :=
  match s.health.target, s.stream with
  | some _, some st =>
    let s := { s with health := { s.health with target := none } }
    match s.choose st with
    | none => s.noPlacement
    | some m =>
      match st.placements[m]? with
      | none => s
      | some p =>
        let s := { s.finishPasses.cutQueues with placement := m }
        let s := s.replaceChans st p
        let s := { s with job := { s.job with lists := p.lists (st.programs.getD p.programSet []) } }
        let s := s.startLists.phaseDomains s.job.phase s.power.retired
        let s := (s.setRegField rGuarantee 2 1 (b2n (m != 0))).setRegField rGuarantee 8 8 m
        let s := s.setReg rFloorMargin (s.floorMargin st p)
        let s := if s.meetsFloor st p then s else s.clearGuarantee 2
        ((s.irq .spares).irq .placement).powerOn
  | _, _ => s

/-! ## Retirement (R341, R342, R345) -/

/-- The power domains of a retired unit. -/
def retiredDomains (f : Nat) : List Nat :=
  let i := f % 256
  match f / 256 with
  | 0x05 => (List.range 10).map (10 * i + ·)
  | 0x04 => [80 + i]
  | 0x02 => [60 + i]
  | 0x03 => [60 + i]
  | 0x01 => [64 + i]
  | 0x06 => [82 + i]
  | 0x0B => [95]
  | 0x0C => [94]
  | _ => []

/-- Domains marked as those of retired units, and switched off. -/
def State.retireDomains (s : State) (ds : List Nat) : State :=
  ds.foldl (fun s d => if d < 96 then
    let s := s.switchOff d
    { s with power := { s.power with retired := s.power.retired ||| BitVec.ofNat 96 (2 ^ d) } } else s) s

/-- Commands in progress of a unit ended as under a kill (R345). -/
def State.cutUnit (s : State) (u : UnitId) : State :=
  (unitPorts u).foldl (fun s p => s.cutQueue ⟨u, p⟩) s

/-- A unit retired: fuses, domains, its commands. -/
def State.retireUnit (s : State) (f : Nat) : State :=
  let s := { s with otp := { s.otp with units := (s.otp.units ++ [f]).eraseDups } }
  let s := match unitOfField f with | some u => s.cutUnit u | none => s
  s.retireDomains (retiredDomains f)

/-- A stack retired as a whole (R279, R347): its contents are lost, the main stream is killed and reloaded from its original source; a full load that is in
progress replaces it instead, and a reload in progress fails. DESIGN CHOICE (log 77). -/
def State.loseStack (s : State) (n : Nat) : State :=
  let s := (s.onStack n (fun k => { k with retired := true, cmds := [], queued := [] })).retireDomains [82 + n]
  let s := { s with mem := wipe s.mem (n * 2 ^ 33) ((n + 1) * 2 ^ 33), memBad := wipe s.memBad (n * 2 ^ 27) ((n + 1) * 2 ^ 27) }
  let loaded := s.stream.isSome && s.job.state != .noStream
  let reload := match s.loader.staged with | some st => st.reload | none => false
  if s.trip.isSome || s.loadCommits && !reload || !loaded then s
  else if s.loader.busy && !reload then s.kill
  else
    let o := s.loader.origin
    let s := s.kill
    ((if s.loader.busy then s.failLoad else s).clearStatus).startLoad o

/-- A link retired (R278, R279): SPARES is raised; a stack without working links is lost, otherwise placements are recomputed. DESIGN CHOICE (log 77). -/
def State.retireLink (s : State) (n link : Nat) : State :=
  let b := linkBit link
  let s := s.onStack n (fun k =>
    let k := if k.rotation.getLsbD link then k.leave link s.now else k
    { k with training := k.training &&& ~~~b, spare := k.spare &&& ~~~b, parked := k.parked &&& ~~~b, retiredLinks := k.retiredLinks ||| b })
  let s := s.irq .spares
  if s.workingLinks n = 0 && !(s.stack n).retired then s.loseStack n else s.recheck

/-- A lane retired (R288): where it was in use a parked lane, or the spare, takes its place (R330). DEDUCED (log 52). -/
def State.retireLane (s : State) (n lane : Nat) : State :=
  let b := laneBit lane
  let s := s.onPort n (fun p =>
    let q := if p.inUse.getLsbD lane then p.replaceLane b else p
    { q with spare := q.spare &&& ~~~b, training := q.training &&& ~~~b, parked := q.parked &&& ~~~b, retired := q.retired ||| b })
  (((s.count (cSldLaneSwitch n) 1).irq .spares).reroute).recheck

/-- RETIREMENT (R345): the element stops taking work, its record is burnt, placements are recomputed. -/
def State.retireElement (s : State) (e : Element) : State :=
  match e with
  | .quadrant c q =>
    let s := { s with otp := { s.otp with quadrants := put 0 s.otp.quadrants c (look 0 s.otp.quadrants c ||| 2 ^ q) } }
    let s := match unitOfField (0x0500 + c) with | some u => s.cutUnit u | none => s
    ((s.retireDomains [10 * c + q]).irq .spares).recheck
  | .sequencer c =>
    let s := { s with otp := { s.otp with sequencers := (s.otp.sequencers ++ [c]).eraseDups } }
    ((s.retireUnit (0x0500 + c)).irq .spares).recheck
  | .unit f =>
    let s := (s.retireUnit f).irq .spares
    if f / 256 = 0x06 then s.loseStack (f % 256) else s.recheck
  | .link n l => s.retireLink n l
  | .lane n l => s.retireLane n l

/-! ## Stack accesses (R274, R277, R278, R280) -/

/-- A fourth failure of an access: the link leaves rotation and retrains, or is retired at its third leave within 24 hours; a stack with no link left to work
is retired as a whole. -/
def State.linkLeaves (s : State) (n link : Nat) : State :=
  let s := s.onStack n (fun k => k.leave link s.now)
  if 3 ≤ (s.stack n).recentLeaves link s.now then s.retireLink n link
  else
    let s := (s.onStack n (fun k => { k with training := k.training ||| linkBit link })).count (cStk n 0x520) 1
    if s.workingLinks n = 0 then s.loseStack n else s

/-- Spare rows in use in a bank of a stack. -/
def Otp.rowsUsed (o : Otp) (stack b : Nat) : Nat := look 0 o.stackRows (stack * 128 + b)

/-- The fewest spare rows left in any bank of a stack, with the lowest such bank (R282). -/
def Otp.minRows (o : Otp) (stack : Nat) : Nat × Nat :=
  (List.range 128).foldl (fun a b => if 16 - o.rowsUsed stack b < a.1 then (16 - o.rowsUsed stack b, b) else a) (17, 0)

/-- A row that must move goes to a spare row of its bank while one is left; its data and poison bits go with it (R281, R282). -/
def State.moveRow (s : State) (n b : Nat) : State :=
  if 16 ≤ s.otp.rowsUsed n b then s
  else
    let was := spareWarn (s.otp.minRows n).1 8 4
    let s := { s with otp := { s.otp with stackRows := put 0 s.otp.stackRows (n * 128 + b) (s.otp.rowsUsed n b + 1) } }
    if was < spareWarn (s.otp.minRows n).1 8 4 then s.irq .spares else s

/-- Whether a row has had a corrected error since its last scrub. -/
def State.setSuspect (s : State) (n key : Nat) (v : Bool) : State := s.onStack n (fun k => { k with suspect := put false k.suspect key v })

/-- An error met in a row, by an access or by the scrub (R280, R281): an uncorrectable one, or a second corrected one since the last scrub, moves the row. DESIGN CHOICE (log 77). -/
def State.rowError (s : State) (n b row : Nat) (ue : Bool) : State :=
  let key := b * 32768 + row
  let s1 := s.count (cStk n (if ue then 0x514 else 0x510)) 1
  if ue || look false (s.stack n).suspect key then (s1.setSuspect n key false).moveRow n b else s1.setSuspect n key true

/-- The poison bit of a line of a stack set (R280). -/
def State.poisonLine (s : State) (n ch line : Nat) : State :=
  { s with memBad := put false s.memBad ((n * 2 ^ 33 + stackOffset ch line) / 64) true }

/-! ## Slots (R273-R278, R280) -/

/-- The read command at the head of a link. -/
def Stack.headRead (k : Stack) (l : Nat) : Option Nat := k.cmds.findIdx? (fun c => c.link == l && !c.write)

/-- A command failed (R277): counted, and reissued up to three times; a fourth failure takes the link out of rotation. `again` is what the reissue leaves of the
commands on the links. -/
def State.accessFails (s : State) (n link fails : Nat) (again : List StackCmd) : State :=
  let s := s.count (cStk n 0x518) 1
  if 3 ≤ fails then s.linkLeaves n link
  else (s.onStack n (fun k => { k with cmds := again })).count (cStk n 0x51C) 1

/-- A slot that carries read data (R274, R277, R280): the head command of the link takes its next line; CE and UE count, a new uncorrectable line is poisoned.
An uncorrectable line that is known has counted as it was read. DESIGN CHOICE (log 77). -/
def State.slotData (s : State) (r : StackRx) : State :=
  let k := s.stack r.stack
  match k.headRead r.link with
  | none => s
  | some i =>
    match k.cmds[i]? with
    | none => s
    | some c =>
      if !slotCrcOk r then s.accessFails r.stack r.link c.fails (k.cmds.eraseIdx i ++ [{ c with fails := c.fails + 1, got := 0 }])
      else
        let line := c.line + c.got
        let b := 16 * c.chan + r.bank
        let rest := if c.lines ≤ c.got + 1 then k.cmds.eraseIdx i else k.cmds.set i { c with got := c.got + 1 }
        let s := s.onStack r.stack (fun k => { k with cmds := rest })
        let known := look false s.memBad ((r.stack * 2 ^ 33 + stackOffset c.chan line) / 64)
        if slotUe r then (if known || k.holdsLine c.chan line then s else (s.poisonLine r.stack c.chan line).rowError r.stack b r.row true)
        else if slotCe r then s.rowError r.stack b r.row false
        else s

/-- Whether a write command's lines include a write sequence number. -/
def StackCmd.hasSeq (c : StackCmd) (n : Nat) : Bool := decide ((n + 64 - c.seq) % 64 < c.lines)

/-- The write status of a READ slot (R273, R276, R277): a nacked write is replayed, later writes to its lines after it; a write is complete with the fourth READ slot
that brings no nack for it. -/
def State.slotStatus (s : State) (r : StackRx) : State :=
  let k := s.stack r.stack
  let bad := if slotNack r then k.cmds.findIdx? (fun c => c.link == r.link && c.write && c.hasSeq (slotSeq r)) else none
  let meets (a b : StackCmd) : Bool := b.write && a.chan == b.chan && decide (a.line < b.line + b.lines) && decide (b.line < a.line + a.lines)
  let hit := bad.bind (fun i => k.cmds[i]?)
  let aged := k.cmds.zipIdx.filterMap (fun x =>
    let c := x.1
    if c.link != r.link || !c.write then some c
    else if some x.2 == bad then some { c with got := 0, fails := c.fails + 1 }
    else if (match bad, hit with | some i, some h => decide (i < x.2) && meets h c | _, _ => false) then some { c with got := 0 }
    else if 4 ≤ c.got + 1 then none
    else some { c with got := c.got + 1 })
  match hit with
  | some c => s.accessFails r.stack r.link c.fails aged
  | none => s.onStack r.stack (fun k => { k with cmds := aged })

/-- STACK_READ_RETURN: one stack-driven slot of a link in rotation; a link out of rotation delivers nothing (R278). Commands that wait then go on.
DESIGN CHOICE (log 77). -/
def State.stackReturn (s : State) (r : StackRx) : State :=
  if !(s.stack r.stack).rotation.getLsbD r.link || (s.stack r.stack).retired || decide (s.part.memStacks ≤ r.stack) then s
  else
    let s := s.count (cStk r.stack 0x524) (b2n r.waited)
    let s := if r.data.isSome then s.slotData r else s
    let s := if slotCrcOk r && (s.stack r.stack).rotation.getLsbD r.link then s.slotStatus r else s
    s.onStack r.stack (fun k => k.pump k.queued.length)

/-- LINK_RETRAIN_DONE (R278, R279): a link that passes becomes the spare, or returns to rotation where links are missing; one that fails is retired. A full load
retrains the links too: one that fails then is retired. DESIGN CHOICE (log 77). -/
def State.linkTrained (s : State) (n link : Nat) (passed : Bool) : State :=
  if !(s.stack n).training.getLsbD link then
    if s.loadCommits && !passed && decide (link < 9) && !(s.stack n).retiredLinks.getLsbD link && decide (n < s.part.memStacks) then s.retireLink n link else s
  else if passed then
    s.onStack n (fun k =>
      let k := { k with training := k.training &&& ~~~(linkBit link) }
      if links (k.rotation ||| k.parked) < 8 then ({ k with rotation := k.rotation ||| linkBit link } : Stack).pump k.queued.length
      else { k with spare := k.spare ||| linkBit link })
  else s.retireLink n link

/-- STACK_SCRUB (R281, R282): `found` 0 nothing, 1 a corrected error, 2 an uncorrectable one, in `line` of the bank's channel. DESIGN CHOICE (log 77). -/
def State.scrubRow (s : State) (n b row found line : Nat) : State :=
  if decide (s.part.memStacks ≤ n) || decide (128 ≤ b) || found = 0 then s.setSuspect n (b * 32768 + row) false
  else if found = 1 then s.rowError n b row false
  else (s.poisonLine n (b / 16) line).rowError n b row true

/-! ## Column segments, tests, calibrations (R341, R343, R344) -/

/-- Column segments used in a quadrant. -/
def Otp.columnsUsed (o : Otp) (core q : Nat) : Nat := look 0 o.columns (core * 4 + q)

/-- COLUMN_SWAP (R341): a spare segment replaces a faulty one between two commands; with none left the quadrant is retired. -/
def State.columnSwap (s : State) (core q : Nat) : State :=
  if decide (6 ≤ core) || decide (4 ≤ q) then s
  else if 4 ≤ s.otp.columnsUsed core q then s.retireElement (.quadrant core q)
  else
    let s := { s with otp := { s.otp with columns := put 0 s.otp.columns (core * 4 + q) (s.otp.columnsUsed core q + 1) } }
    if spareWarn (5 - s.otp.columnsUsed core q) 2 1 < spareWarn (4 - s.otp.columnsUsed core q) 2 1 then s.irq .spares else s

/-- A line moved to a spare row (R130, R131); with none left in its bank the core is retired. -/
def State.moveOrRetire (s : State) (n : Fin 6) (line : Nat) : State :=
  let r := s.repairLine n line
  if r.1 then r.2 else ((r.2.retireUnit (0x0500 + n.val)).irq .spares).recheck

/-- A test's target as a number, by which a first failure is remembered. -/
def testCode : TestTarget → Nat
  | .column c q g => 1 + (c * 4 + q) * 8 + g
  | .vector c => 1000 + c
  | .line c l => 2_000_000 * (c + 1) + l
  | .pewter n => 1100 + n
  | .pipeline n => 1200 + n
  | .spareLink n => 1300 + n
  | .spareLane n => 1400 + n

/-- The unit on which a test runs, whose queues must lie in a natural gap. -/
def testUnit : TestTarget → Option UnitId
  | .column c _ _ => unitOfField (0x0500 + c)
  | .vector c => unitOfField (0x0500 + c)
  | .line c _ => unitOfField (0x0500 + c)
  | .pewter n => unitOfField (0x0400 + n)
  | .pipeline n => unitOfField (0x0200 + n)
  | _ => none

/-- A natural gap: every queue of the unit reads END_IDLE or waits on TOKEN, LAUNCH or BARRIER. -/
def State.gap (s : State) (t : TestTarget) : Bool :=
  match testUnit t with
  | some u => (unitPorts u).all (fun p => [1, 3, 4, 5].contains (s.queue ⟨u, p⟩).wait.reason || (s.queue ⟨u, p⟩).prog.isEmpty)
  | none => true

/-- SP_REPAIR (R130): a line that has met an uncorrectable error, or a second correctable one since its last write, is repaired in a natural gap of its core. -/
def State.spRepair (s : State) (n : Fin 6) (line : Nat) : State :=
  if (s.cores[coreOf (.tc n)].line line).worn && s.gap (.line n.val line) then s.moveOrRetire n line else s

/-- A hard fault repaired from a spare, or the element retired (R343). -/
def State.hardFault (s : State) (t : TestTarget) : State :=
  match t with
  | .column c q _ => s.columnSwap c q
  | .vector c => s.retireElement (.unit (0x0500 + c))
  | .line c l => if h : c < 6 then s.moveOrRetire ⟨c, h⟩ l else s
  | .pewter n => s.retireElement (.unit (0x0400 + n))
  | .pipeline n => s.retireElement (.unit (0x0200 + n))
  | .spareLink n => (match (List.range 9).find? (fun i => (s.stack n).spare.getLsbD i) with | some l => s.retireElement (.link n l) | none => s)
  | .spareLane n => (match (List.range 5).find? (fun i => (s.port n).spare.getLsbD i) with | some l => s.retireElement (.lane n l) | none => s)

/-- Whether a ramp of VDD_CORE is in progress (PWR_STATUS.RAMPING). -/
def State.ramping (s : State) : Bool := s.pwr.step.isSome || s.pwr.die != s.goalMv

/-- BACKGROUND_TEST (R343): a first failure is repeated; a second is a hard fault, counted and repaired or retired. No test runs past order 3 of a load,
during a trip or a ramp, or outside a natural gap. DESIGN CHOICE (log 78). -/
def State.backgroundTest (s : State) (t : TestTarget) (passed : Bool) : State :=
  if s.loadCommits || s.trip.isSome || s.ramping || !s.gap t then s
  else if passed then { s with health := { s.health with suspect := none, ageMs := match t with | .column _ _ _ => 0 | _ => s.health.ageMs } }
  else if s.health.suspect == some (testCode t) then
    (({ s with health := { s.health with suspect := none } }).count (blkErr + 0x02C) 1).hardFault t
  else { s with health := { s.health with suspect := some (testCode t) } }

/-- CALIBRATION (R344): counted by kind, its tick kept; a failure keeps the previous setting and counts. DESIGN CHOICE (log 78). -/
def State.calibration (s : State) (kind : Nat) (passed : Bool) : State :=
  if 4 < kind then s
  else if passed then
    ((s.count (bank kind (blkErr + 0x058)) 1).setReg (bank kind (blkErr + 0x060)) (s.now % 2 ^ 32)).setReg (bank kind (blkErr + 0x064)) (s.now / 2 ^ 32 % 2 ^ 32)
  else s.count (bank kind (blkErr + 0x05C)) 1

end Sys2Proof.Machine
end

