-- ==== Sys2Proof/Machine/Registers.lean ====
section
/-! DEFINITION. Machine/Registers.lean: the register page: what each register reads (R9, R74, R254 and the register tables), what a read changes, and what a write
does (R9, R10, R268, R372).

A register whose state has no home elsewhere reads its cell. Registers that describe a selected element have one cell per element (`home`). -/

namespace Sys2Proof.Machine

open Sys2Proof

/-! ## Queue register sets (R74) -/

/-- Q_POS: the current list's index, and the oldest command that has not completed. -/
def State.posWord (s : State) (q : QueueId) : Nat :=
  let li := match s.currentList q with | some l => l.index | none => 0
  let at0 := match s.oldest q with | some e => e.pos | none => (s.queue q).pc
  li % 4096 + 4096 * (at0 % 2 ^ 20)

/-- Whether a queue that nothing else holds back waits for a refill of its fetch buffer (R60): the command it stands at is not held. DESIGN CHOICE (log 107). -/
def State.fetching (s : State) (q : QueueId) : Bool :=
  (s.queue q).wait.reason == 0 && s.live q && (s.fetch q).isSome && (s.queue q).refill != (s.queue q).buffer

/-- Q_WAIT. -/
def State.waitWord (s : State) (q : QueueId) : Nat :=
  let w := (s.queue q).wait
  if s.fetching q then 7 else
  w.reason % 16 + 16 * (w.counter % 64) + 1024 * b2n w.bank + 65536 * (w.channel % 65536)

/-- A word of a unit's queue register set. -/
def State.queueSet (s : State) (u : UnitId) (o : Nat) : Nat :=
  if s.gone (unitField u) && [8, 9].contains (unitClass u) then 0
  else if o < 0x14 then (if (unitPorts u).contains (o / 4) then s.posWord ⟨u, o / 4⟩ else 0)
  else if 0x20 ≤ o ∧ o < 0x34 then (if (unitPorts u).contains ((o - 0x20) / 4) then s.waitWord ⟨u, (o - 0x20) / 4⟩ else 0)
  else if 0x100 ≤ o ∧ o < 0x180 then s.token u ((o - 0x100) / 2) + 65536 * s.token u ((o - 0x100) / 2 + 1)
  else 0

/-! ## Cells of selected elements -/

/-- The cell behind a register: that of the element its selector names. -/
def State.home (s : State) (off : Nat) : Nat :=
  if blkMem + 0x510 ≤ off ∧ off ≤ blkMem + 0x524 then bank (s.reg (blkMem + 0x500) % 8) off
  else if blkSld + 0x020 ≤ off ∧ off ≤ blkSld + 0x02C then bank (s.reg (blkSld + 0x008) % 8) off
  else if blkEth + 0x344 ≤ off ∧ off ≤ blkEth + 0x34C then bank (s.reg (blkEth + 0x340) % 4) off
  else if blkPwr + 0x028 ≤ off ∧ off ≤ blkPwr + 0x02C then bank (s.reg (blkPwr + 0x024) % 8) off
  else if blkPwr + 0x034 ≤ off ∧ off ≤ blkPwr + 0x03C then bank (s.reg (blkPwr + 0x030) % 8) off
  else if blkErr + 0x010 ≤ off ∧ off ≤ blkErr + 0x024 then bank (s.reg blkErr % 2 ^ 14) off
  else if blkErr + 0x058 ≤ off ∧ off ≤ blkErr + 0x060 then bank (s.reg (blkErr + 0x054) % 8) off
  else off

/-- The block number of an offset of the register page. -/
def blockOf (off : Nat) : Nat := off / 0x1000

/-- Whether a register is cleared by a read (RC). -/
def isRc (off : Nat) : Bool :=
  let o := off % 0x1000
  let b := blockOf off
  if b = 1 then o == 0x00C
  else if b = 2 then decide (0x020 ≤ o) && decide (o ≤ 0x038)
  else if b = 3 then (decide (0x41C ≤ o) && decide (o ≤ 0x424)) || (decide (0x510 ≤ o) && decide (o ≤ 0x524))
  else if b = 4 then o == 0x020 || (decide (0x02C ≤ o) && decide (o ≤ 0x040))
  else if b = 5 then decide (0x344 ≤ o) && decide (o ≤ 0x34C)
  else if b = 6 then (decide (0x020 ≤ o) && decide (o ≤ 0x02C)) || (decide (0x040 ≤ o) && decide (o ≤ 0x054))
  else if b = 7 then o == 0x034 || o == 0x038 || (decide (0x044 ≤ o) && decide (o ≤ 0x04C))
  else if b = 8 then [0x010, 0x014, 0x018, 0x01C, 0x024, 0x028, 0x02C, 0x058, 0x05C].contains o
  else if b = 10 then decide (0x050 ≤ o) && decide (o ≤ 0x05C)
  else if 0x10 ≤ b ∧ b ≤ 0x15 then [0x204, 0x208, 0x20C, 0x210, 0x220, 0x224, 0x228, 0x230, 0x234, 0x310, 0x314, 0x318, 0x31C].contains o
  else if b = 0x16 ∨ b = 0x17 then decide (0x204 ≤ o) && decide (o ≤ 0x210)
  else if 0x18 ≤ b ∧ b ≤ 0x1B then (decide (0x410 ≤ o) && decide (o ≤ 0x428)) || (decide (0x508 ≤ o) && decide (o ≤ 0x510))
  else if 0x20 ≤ b ∧ b ≤ 0x2F then (decide (0x010 ≤ o) && decide (o ≤ 0x034)) || o == 0x084
  else false

/-! ## Blocks -/

/-- DEV_ registers. -/
def State.devWord (s : State) (o : Nat) : Nat :=
  let st := s.reg o
  if o = 0x000 then s.devId
  else if o = 0x004 then (if s.boot.up then s.boot.release else 0)
  else if o = 0x008 then b2n s.boot.up + 2 * b2n s.mgmt.restart + 4 * b2n s.host.committed
  else if o = 0x084 then
    let stage := if s.health.target.isSome then 7 else match s.loader.stage with
      | .idle => 0 | .receiving => 1 | .checking => 2 | .draining => 3 | .scrubbing => 4 | .weights => 5 | .starting => 6 | .switching => 7
    stage + 16 * b2n s.loadBusy + (st &&& 0xD_FFE0) + 2 ^ 17 * b2n (decide (4 ≤ s.boot.straps % 8) && s.boot.up) + 2 ^ 20 * b2n s.loader.wanted.isSome
  else if o = 0x08C then 2 ^ 31 * b2n s.chunkReady
  else if o = 0x090 then s.loader.wanted.getD 0
  else if o = 0x094 then s.streamId % 2 ^ 32
  else if o = 0x098 then s.streamId / 2 ^ 32
  else if o = 0x09C then s.boot.straps % 8 + 8 * b2n s.boot.isDefault + 16 * s.boot.flashSlot
  else if o = 0x108 then look 0 s.job.submitted (s.reg 0x104 % 64)
  else if o = 0x10C then look 0 s.job.completed (s.reg 0x104 % 64)
  else if o = 0x114 then s.job.state.code + (st &&& 0x18) + 32 * s.job.phase
  else if 0x180 ≤ o ∧ o < 0x200 then s.doorbell ((o - 0x180) / 2) + 65536 * s.doorbell ((o - 0x180) / 2 + 1)
  else st

/-- CHN_ registers. -/
def State.chnWord (s : State) (o : Nat) : Nat :=
  let base := match s.stream with | some st => (if s.job.state = .noStream then 0 else st.tableBase) | none => 0
  if o = 0x000 then base % 2 ^ 32
  else if o = 0x004 then base / 2 ^ 32 % 16
  else if o = 0x008 then s.chans.length % 2 ^ 17 + 2 ^ 17 * ((s.chans.filter (fun c => c.ent.pinned)).length % 1024)
  else if o = 0x014 then b2n s.snap.valid + 2 * b2n s.snap.undefined
  else if 0x040 ≤ o ∧ o < 0x080 then (s.snap.words.getD ((o - 0x040) / 4) 0).toNat
  else s.reg (blkChn + o)

/-- A mode register of a host channel at the set point in operation. PRESUMED (log 8). -/
def HostChan.mr (c : HostChan) (n : Nat) : Nat := look 0 c.modes (c.fsp * 256 + n)

/-- The value that a channel reports for a mode register (R244): MR4 to MR8 are the device's own, every other reads back as written. PRESUMED (log 8). -/
def State.mrValue (s : State) (n r : Nat) : Nat :=
  match r with
  | 4 => 9
  | 5 => 0x7A
  | 6 => Sys2Proof.Config.siliconRev % 256
  | 7 => 0
  | 8 => 0x18
  | _ => (s.hostChan n).mr r

/-- HOST_CH_INFO of a channel (R381). PRESUMED (log 8). -/
def State.chInfo (s : State) (n : Nat) : Nat :=
  let c := s.hostChan n
  let mr (r : Nat) : Nat := s.mrValue n r
  if !c.trained then 0
  else 1 + 2 * b2n c.selfRefresh + 4 * b2n c.deepSleep + 8 * b2n (field (mr 22) 4 2 != 0) + 16 * b2n (field (mr 22) 6 2 != 0) +
    32 * b2n ((mr 3).testBit 7) + 64 * b2n ((mr 3).testBit 6) + 128 * b2n (field (mr 3) 3 2 == 0) + 256 * (c.fsp % 4) +
    65536 * (Sys2Proof.Config.dataRate (4 * n + c.fsp) % 65536)

/-- The window map entry of an aperture page. DESIGN CHOICE (log 58). -/
def State.mapOf (s : State) (page : Nat) : Option WinMap :=
  match s.stream with
  | some st => if s.job.state = .noStream && !s.loader.scrubbed then none else st.winMap.find? (fun m => m.aperture == page)
  | none => none

/-- The level of HOST_IRQ_N: low while any bit of HOST_IRQ_STATUS is set (R265). -/
def State.hostIrqN (s : State) : Bool := s.reg rIrq == 0

/-- HOST_ registers. -/
def State.hostWord (s : State) (o : Nat) : Nat :=
  if o = 0x000 then
    let ready := (List.range 4).foldl (fun a n => a + 2 ^ n * b2n (s.hostChan n).trained) 0
    let rate := Sys2Proof.Config.dataRate (s.hostChan 0).fsp % 65536
    ready + 128 * b2n s.hostIdle + 256 * b2n s.host.discovery +
      (if ready = 15 then 16 * b2n (decide (6400 < rate) || (s.hostChan 0).isX) + 32 * ((s.hostChan 0).fsp % 4) + 65536 * rate else 0)
  else if o = 0x010 then
    let p := s.reg (blkHost + 0x00C) % 2 ^ 21
    (match s.mapOf p with
     | some m => m.window % 8192 + 2 ^ 13 + 2 ^ 14 * b2n m.hostWrite + 2 ^ 15 * b2n m.publish + 2 ^ 18 * b2n (look false s.linkErr m.window)
     | none => 0) + 2 ^ 16 * b2n (s.host.active.bootPages.contains p) + 2 ^ 17 * b2n (isRegPage p)
  else if 0x040 ≤ o ∧ o < 0x050 then s.chInfo ((o - 0x040) / 4)
  else s.reg (blkHost + o)

/-- MEM_ registers. -/
def State.memWord (s : State) (o : Nat) : Nat :=
  let n := s.reg (blkMem + 0x500) % 8
  let k := s.stack n
  let here := decide (n < s.part.memStacks)
  let ptBase := s.tableStack * 2 ^ 33 + 0x1_F400_0000
  if o = 0x404 then ptBase % 2 ^ 32
  else if o = 0x408 then ptBase / 2 ^ 32
  else if o = 0x418 then s.faults.records.length % 64 + 64 * b2n s.faults.request.isSome + 128 * b2n (!s.faults.waiting.isEmpty)
  else if o = 0x428 then s.faults.request.getD 0 % 2 ^ 24
  else if 0x440 ≤ o ∧ o < 0x460 then (match s.faults.last with | some r => leAt r.bytes (o - 0x440) 4 | none => 0)
  else if o = 0x504 then
    if here then 1 + 2 * b2n k.retired + 4 * min 8 (links k.rotation) + 64 * b2n (k.spare != 0) + 128 * k.rotation.toNat + 65536 * k.retiredLinks.toNat +
      2 ^ 25 * b2n (k.training != 0) else 0
  else if o = 0x508 then
    let m := s.otp.minRows n
    let used := (List.range 128).foldl (fun a b => a + s.otp.rowsUsed n b) 0
    if here then m.1 % 32 + 32 * m.2 + 4096 * spareWarn m.1 8 4 + 16384 * (if k.retiredLinks = 0 then 0 else 3) + 65536 * used else 0
  else if o = 0x528 then (if here then k.temp % 65536 else 0)
  else s.reg (s.home (blkMem + o))

/-- TIME_ registers. -/
def State.timeWord (s : State) (o : Nat) : Nat :=
  let t := s.time
  if o = 0x000 then s.now % 2 ^ 32
  else if o = 0x004 then t.latchNow
  else if o = 0x008 then
    t.source + 16 * b2n t.locked + 32 * b2n t.holdover + 64 * b2n (t.master == s.device) + 128 * b2n t.valid + 256 * (t.master % 1024) + 2 ^ 18 * (t.hops % 1024) +
      2 ^ 28 * b2n (match t.pps with | some p => decide (s.now - p ≤ 3 * second / 2) | none => false) + 2 ^ 29 * b2n t.ref
  else if o = 0x00C then offsetCode t.offset
  else if o = 0x010 then unsigned 32 t.freq
  else if o = 0x024 then t.calLast % 2 ^ 32
  else if o = 0x028 then t.latchCal
  else if o = 0x050 then (List.range 32).foldl (fun a p => a + 2 ^ p * b2n (s.ballLevel p)) 0
  else if o = 0x058 then (s.pin (s.reg (rTime 0x054) % 32)).last.1 % 2 ^ 32
  else if o = 0x05C then t.latchCap
  else if o = 0x060 then (s.pin (s.reg (rTime 0x054) % 32)).last.2
  else if 0x200 ≤ o ∧ o < 0x280 then
    let g := s.gen ((o - 0x200) / 4)
    b2n g.running + 2 * (g.pin % 32) + 256 * (if !g.running then 0 else if g.count = 0 then 0xFF_FFFF else min 0xFF_FFFF (g.count - g.k))
  else if 0x400 ≤ o ∧ o < 0x580 then s.queueSet .time (o - 0x400)
  else s.reg (blkTime + o)

/-- ETH_ registers. -/
def State.ethWord (s : State) (o : Nat) : Nat :=
  if 0x304 ≤ o ∧ o < 0x314 then
    let p := s.ethPort ((o - 0x304) / 4)
    p.ptp % 8 + 8 * b2n p.asCapable + 16 * b2n p.gcl.isSome
  else if h : 0x400 ≤ o ∧ o < 0x400 + 0x180 * 4 then s.queueSet (.eth ⟨(o - 0x400) / 0x180, by omega⟩) ((o - 0x400) % 0x180)
  else s.reg (s.home (blkEth + o))

/-- SLD_ registers. -/
def State.sldWord (s : State) (o : Nat) : Nat :=
  let n := s.reg (blkSld + 0x008) % 8
  let p := s.port n
  let here := decide (n < s.part.solderPorts)
  let used (b : BitVec 5) : Nat := ((List.range 5).filter (fun i => b.getLsbD i)).length
  if o = 0x000 then s.device % 1024 + 1024 * (match s.stream with | some st => st.topologyKind % 4 | none => 0)
  else if o = 0x004 then
    let c := coords s.dims s.device
    c.getD 0 0 % 1024 + 1024 * (c.getD 1 0 % 32) + 2 ^ 15 * (c.getD 2 0 % 8)
  else if o = 0x00C then
    if here then 1 + 2 * b2n p.up + 4 * used p.inUse + 32 * b2n (p.spare != 0) + 64 * b2n (p.retraining || p.training != 0) + 256 * (p.neighbour % 1024) else 0
  else if o = 0x010 then (if here then p.inUse.toNat + 256 * p.retired.toNat else 0)
  else if h : 0x400 ≤ o ∧ o < 0x400 + 0x180 * 8 then s.queueSet (.sp ⟨(o - 0x400) / 0x180, by omega⟩) ((o - 0x400) % 0x180)
  else s.reg (s.home (blkSld + o))

/-- PWR_ registers. -/
def State.pwrWord (s : State) (o : Nat) : Nat :=
  let c := s.reg (blkPwr + o)
  if o = 0x000 then
    let p := pointAt s.pwr.die
    let active := (List.range 7).foldl (fun a r => a + 2 ^ r * b2n (match s.pwr.reasons[r]? with | some t => t.active | none => false)) 0
    (if p < 2 then 8 + 16 * p else p - 2) + 32 * b2n s.ramping + 64 * b2n s.pwr.frozen + 128 * active + (c &&& 0x2_4000) +
      2 ^ 15 * b2n (c.testBit 15 || c.testBit 18) + 65536 * b2n s.pwr.matchShort + 2 ^ 20 * ((s.pwr.die + s.part.margin) % 1024)
  else if o = 0x004 then c % 2 ^ 17 + 2 ^ 17 * b2n s.pwr.brake
  else if o = 0x008 then
    let parkedLinks := s.memStacks.toList.foldl (fun a k => a + links k.parked) 0
    let parkedLanes := s.ports.toList.foldl (fun a p => a + ((List.range 5).filter (fun i => p.parked.getLsbD i)).length) 0
    c % 16 + 16 * min 15 parkedLinks + 256 * min 15 parkedLanes
  else if o = 0x018 then c % 2 ^ 24 + 2 ^ 24 * (s.pwr.hot % 256)
  else if o = 0x028 then
    let r := s.reg (blkPwr + 0x024) % 8
    s.reg (bank r (blkPwr + 0x028)) % 256 + 256 * b2n (r == 0)
  else if 0x050 ≤ o ∧ o < 0x068 then
    let n := (o - 0x050) / 4
    if s.power.on.getLsbD (10 * n + 9) then look 0 s.pwr.rates n else 0
  else if 0x070 ≤ o ∧ o < 0x07C then s.power.on.toNat >>> (32 * ((o - 0x070) / 4)) % 2 ^ 32
  else if 0x080 ≤ o ∧ o < 0x0A0 then
    let op := (o - 0x080) / 4
    pointMv (op + 2) + 1024 * (pointMv (op + 2) + s.part.margin) + 2 ^ 20 * pointRate op
  else s.reg (s.home (blkPwr + o))

/-- The spares of a unit, as (left, total) of each of its elements (*Spares and reserves*). -/
def State.spares (s : State) (f : Nat) : List (Nat × Nat) :=
  let i := f % 256
  match f / 256 with
  | 0x05 => if h : i < 6 then
      (List.range 4).map (fun q => (4 - s.otp.columnsUsed i q, 4)) ++ (List.range 64).map (fun b => (s.cores[coreOf (.tc ⟨i, h⟩)].sparesLeft b, 24)) else []
  | 0x06 => (List.range 128).map (fun b => (16 - s.otp.rowsUsed i b, 16)) ++ [(b2n ((s.stack i).retiredLinks == 0), 1)]
  | 0x08 => [(b2n ((s.port i).retired == 0), 1)]
  | _ => []

/-- ERR_SPARE of a unit. DESIGN CHOICE (log 108). -/
def State.spareWord (s : State) (f : Nat) : Nat :=
  let gone := s.otp.units.contains f || (f / 256 == 0x05 && s.otp.sequencers.contains (f % 256)) || (f / 256 == 0x06 && (s.stack (f % 256)).retired)
  let low := (s.spares f).foldl (fun (a : Option (Nat × Nat)) x => match a with
    | none => some x
    | some y => if x.1 * y.2 < y.1 * x.2 then some x else some y) none
  let (left, total) := low.getD (0, 0)
  let pct := if total = 0 then (if gone then 0 else 100) else 100 * left / total
  let warn := if pct = 0 then 3 else if pct ≤ 25 then 2 else if pct ≤ 50 then 1 else 0
  pct + 256 * warn + 1024 * b2n gone + 4096 * (if f / 256 = 0x05 then look 0 s.otp.quadrants (f % 256) % 16 else 0) + 65536 * left + 2 ^ 24 * total

/-- ERR_ registers. -/
def State.errWord (s : State) (o : Nat) : Nat :=
  if o = 0x040 then s.spareWord (s.reg blkErr % 2 ^ 14)
  else if o = 0x050 then
    min s.health.ageMs (2 ^ 24 - 1) + 2 ^ 24 * b2n s.health.starved.isSome + 2 ^ 25 * (s.health.starved.getD 0 % 8) + 2 ^ 28 * b2n s.health.testing
  else if 0x070 ≤ o ∧ o < 0x07C then s.power.retired.toNat >>> (32 * ((o - 0x070) / 4)) % 2 ^ 32
  else s.reg (s.home (blkErr + o))

/-- SEC_ registers. -/
def State.secWord (s : State) (o : Nat) : Nat :=
  let b := s.boot
  if o = 0x000 then b.fwSlot + 4 * b2n b.recovery + 8 * b2n b.slow + 16 * b.failA + 256 * b.failB
  else if 0x010 ≤ o ∧ o < 0x040 then leAt b.measure (o - 0x010) 4
  else if o = 0x040 then Sys2Proof.Config.serial % 2 ^ 32
  else if o = 0x044 then Sys2Proof.Config.serial / 2 ^ 32 % 2 ^ 32
  else if o = 0x048 then s.slotsWord
  else if o = 0x04C then s.otp.ladder % 128 + 256 * (b.version % 128)
  else if 0x050 ≤ o ∧ o < 0x060 then leAt s.sec.nonce (o - 0x050) 4
  else if o = 0x064 then s.reg rTokenStatus + b2n s.sec.token.isSome
  else if o = 0x068 then b2n s.sec.unlocked + 2 * (s.sec.perms % 8) + 16 * s.sec.signer
  else if o = 0x074 then b2n s.sec.snapshot.isSome + 2 * b2n s.sec.held + 4 * b2n s.sec.waiting
  else s.reg (blkSec + o)

/-- INV_ registers. -/
def State.invWord (s : State) (o : Nat) : Nat :=
  let v := s.inv
  let l := v.legal.map (fun l => (l.version, l.instrument))
  if o = 0x000 then
    b2n (!s.otp.invarOff) + 2 * b2n v.running + 4 * b2n (!v.cal) + 8 * b2n s.sealOk + 16 * b2n v.trailOk + 32 * b2n v.kept + 64 * v.keptReason +
      256 * b2n v.signing.isSome + (s.reg rInvStatus &&& 0x200)
  else if 0x010 ≤ o ∧ o < 0x040 then leAt v.effect (o - 0x010) 4
  else if o = 0x040 then s.otp.audit % 8192 + 16384 * auditWarn s.otp.audit
  else if o = 0x044 then v.seq % 2 ^ 32
  else if o = 0x064 then (match l with | some x => x.1 | none => 0)
  else if o = 0x068 then (match l with | some x => x.2 % 2 ^ 32 | none => 0)
  else if o = 0x06C then (match l with | some x => x.2 / 2 ^ 32 | none => 0)
  else s.reg (blkInv + o)

/-- TCn_ registers. -/
def State.tcWord (s : State) (n : Fin 6) (o : Nat) : Nat :=
  let c := s.cores[coreOf (.tc n)]
  if o < 0x180 then s.queueSet (.tc n) o
  else if o = 0x200 then 128 + 512 * 128 + 2 ^ 18 * 256
  else if o = 0x300 then 12224 + 65536 * 12288
  else if o = 0x304 then 64 + 256 * 16 + 8192 * 4 + 65536 * 24 + 2 ^ 24 * 12
  else if o = 0x308 then c.on.toNat + 16 * c.zeroing.toNat
  else if o = 0x30C then
    let m := c.minSpare
    let used := (List.range 64).foldl (fun a b => a + (24 - c.sparesLeft b)) 0
    used % 2048 + 2048 * (m.1 % 32) + 65536 * (m.2 % 64) + 2 ^ 22 * spareWarn m.1 12 6
  else s.reg (blkTc n + o)

/-- EEn_ registers. -/
def State.eeWord (s : State) (n : Fin 2) (o : Nat) : Nat :=
  if o < 0x180 then s.queueSet (.ee n) o
  else if o = 0x200 then 36 + 64 * 64 + 8192 * 384
  else s.reg (blkEe n + o)

/-- Complete frames of a memory-fed camera that have not started. -/
def Camera.waiting (k : Camera) : Nat := (k.frames.filter (fun f => f.closed)).length

/-- PPn_ registers. -/
def State.ppWord (s : State) (n : Fin 4) (o : Nat) : Nat :=
  let p := s.pipe n
  let fed := (List.range 16).filter (fun c => match s.camDest c with | some d => d.1 == n.val && d.2 != 0 | none => false)
  if o < 0x180 then s.queueSet (.front n) o
  else if 0x200 ≤ o ∧ o < 0x380 then s.queueSet (.back n) (o - 0x200)
  else if o = 0x400 then
    let cam := s.inlineCam n
    cam.getD 0 + 16 * b2n (match cam with | some c => !(s.cam c).frames.isEmpty | none => false) +
      256 * (match p.fed with | some (c, _) => c | none => 0) + 4096 * b2n p.fed.isSome + 65536 * min 255 ((fed.map (fun c => (s.cam c).waiting)).foldl (· + ·) 0)
  else if o = 0x408 then
    let k := s.cam (s.reg (blkPp n + 0x404) % 16)
    (List.range 8).foldl (fun a g => a + 8 ^ g * min 4 (k.pending.filter (fun x => x.group == g)).length) 0
  else if o = 0x500 then
    let act : Option (Nat × Frame) := match p.fed with
      | some x => some x
      | none => (s.inlineCam n).bind (fun c => ((s.cam c).frames.head?).map (fun f => (c, f)))
    (match act with
     | some (c, f) =>
       let b := f.band
       c + 16 * ((match b with | some b => f.row / max 1 b.rows | none => 0) % 65536) + 2 ^ 20 * b2n (!f.outq.isEmpty) + 2 ^ 21 * (match b with | some b => b.cores % 8 | none => 0)
     | none => 0)
  else if o = 0x504 then
    (match p.back with
     | some b =>
       let c := (s.cam b.camera).beCfg
       b.camera + 16 + 32 * ((List.range 3).foldl (fun a o => a + 2 ^ o * b2n (c.format o != 0)) 0) + 256 * (leAt c.g0 0 1 % 2)
     | none => 0)
  else s.reg (blkPp n + o)

/-- CAMn_ registers; those of ports 0-7 hold the sensor-control port of the same index. -/
def State.camWord (s : State) (c : Nat) (o : Nat) : Nat :=
  let k := s.cam c
  if o = 0x000 then
    let fed := match s.camDest c with | some d => d.2 != 0 | none => false
    let pp := match s.camDest c with | some d => d.1 | none => 0
    b2n k.started + 2 * b2n k.configured + 4 * b2n (k.frames.any (fun f => !f.closed)) + 8 * b2n fed + 16 * (k.port 0 1 % 16) + 256 * (k.port 1 1 % 64) +
      65536 * (pp % 4) + 2 ^ 18 * (if fed then min 15 k.waiting else 0)
  else if o = 0x048 then (let m := (s.mclk.toList.getD c ⟨0, none⟩).freq; b2n (m != 0) + 2 * m)
  else if h : c < 8 then
    if o = 0x080 then
      let i3c := match s.stream.bind (fun st => st.unitRec (0x0B00 + c)) with | some u => u.role == 0x39 | none => false
      b2n ((unitPorts (.sctl ⟨c, h⟩)).any (fun p => !(s.queue ⟨.sctl ⟨c, h⟩, p⟩).prog.isEmpty)) + 2 * b2n i3c + (s.reg (rSctlStatus c) &&& 4)
    else if o = 0x088 then
      let i := s.ibi[c]
      i.payload % 256 + 256 * (i.address % 128) + 32768 * b2n i.valid + 65536 * min 65535 i.count
    else if 0x100 ≤ o ∧ o < 0x280 then s.queueSet (.sctl ⟨c, h⟩) (o - 0x100)
    else s.reg (blkCam c + o)
  else s.reg (blkCam c + o)

/-- A word of the upload buffer. -/
def State.bufferWord (s : State) (o : Nat) : Nat := leNat (lookAll (0 : Byte) s.upload.data (o % 65536) 4)

/-- What a register reads. -/
def State.regWord (s : State) (off : Nat) : Nat :=
  let o := off % 0x1000
  let b := blockOf off
  if b = 0 then s.devWord o
  else if b = 1 then s.chnWord o
  else if b = 2 then s.hostWord o
  else if b = 3 then s.memWord o
  else if b = 4 then s.timeWord o
  else if b = 5 then s.ethWord o
  else if b = 6 then s.sldWord o
  else if b = 7 then s.pwrWord o
  else if b = 8 then s.errWord o
  else if b = 9 then s.secWord o
  else if b = 10 then s.invWord o
  else if h : 0x10 ≤ b ∧ b < 0x16 then s.tcWord ⟨b - 0x10, by omega⟩ o
  else if h : 0x16 ≤ b ∧ b < 0x18 then s.eeWord ⟨b - 0x16, by omega⟩ o
  else if h : 0x18 ≤ b ∧ b < 0x1C then s.ppWord ⟨b - 0x18, by omega⟩ o
  else if 0x20 ≤ b ∧ b < 0x30 then s.camWord (b - 0x20) o
  else if 0x30 ≤ b ∧ b < 0x40 then s.bufferWord (off - 0x30000)
  else 0

/-! ## What a read changes -/

/-- A read of LO latches HI; an RC register clears. -/
def State.readEffect (s : State) (off : Nat) : State :=
  if off = blkTime then s.onTime (fun t => { t with latchNow := s.now / 2 ^ 32 % 2 ^ 32 })
  else if off = blkTime + 0x024 then s.onTime (fun t => { t with latchCal := t.calLast / 2 ^ 32 % 2 ^ 32 })
  else if off = blkTime + 0x058 then s.onTime (fun t => { t with latchCap := (s.pin (s.reg (rTime 0x054) % 32)).last.1 / 2 ^ 32 % 2 ^ 32 })
  else if off = blkInv + 0x044 then s.setReg (blkInv + 0x048) (s.inv.seq / 2 ^ 32 % 2 ^ 32)
  else if off = blkPwr + 0x03C then s.setReg (blkPwr + 0x040) (s.reg (bank (s.reg (blkPwr + 0x030) % 8) (blkPwr + 0x040)))
  else if off = blkErr + 0x060 then s.setReg (blkErr + 0x064) (s.reg (bank (s.reg (blkErr + 0x054) % 8) (blkErr + 0x064)))
  else if 0x10 ≤ blockOf off ∧ blockOf off < 0x18 ∧ off % 0x1000 = 0x218 then s.setReg (off + 4) (s.reg (bank 0x300 (off + 4)))
  else if off % 0x1000 = 0x088 ∧ 0x20 ≤ blockOf off ∧ blockOf off < 0x28 then
    { s with ibi := s.ibi.setIfInBounds (blockOf off - 0x20) ⟨0, 0, false, 0⟩ }
  else if isRc off then s.setReg (s.home off) 0
  else s

/-- What registers read before FIRMWARE_UP: their reset values, with what the fuses hold (R372). DESIGN CHOICE (log 60). -/
def State.atReset (s : State) : State :=
  { State.reset with part := s.part, otp := s.otp, power := { State.reset.power with retired := s.power.retired }, regs := regsReset s.part, sec := s.sec
                     cores := s.cores.map (fun c => { Core.reset with spareUsed := c.spareUsed, spareMap := c.spareMap })
                     memStacks := s.memStacks.map (fun k => { Stack.reset with retiredLinks := k.retiredLinks })
                     boot := { Boot.reset with straps := s.boot.straps, mgmtAddr := s.boot.mgmtAddr }
                     ports := s.ports.map (fun p => { Port.down with retired := p.retired }), upload := s.upload }

/-- Whether reads return reset values: firmware is not up, and the ROM does not serve a recovery upload (R352, R372). DESIGN CHOICE (log 60). -/
def State.asleep (s : State) : Bool := !s.boot.up && !s.boot.recovery

/-- A register read: its word, and the state after it (R9, R254, R372). -/
def State.regRead (s : State) (off : Nat) : Nat × State :=
  if s.asleep then (s.atReset.regWord off, s) else (s.regWord off, s.readEffect off)

/-! ## Writes -/

/-- W1C bits of a cell. -/
def State.w1c (s : State) (k mask w : Nat) : State :=
  let v := s.reg k
  s.setReg k (v ^^^ (v &&& mask &&& w))

/-- RW bits of a cell; the others keep their value. DESIGN CHOICE (log 81). -/
def State.rw (s : State) (k lo n w : Nat) : State := s.setRegField k lo n (field w lo n)

/-- What follows a page filled by the host: neighbours' requests, transfers and the buffer's next user. -/
def State.afterFill (s : State) : State := s.serveAll.kick.freeBuffer

/-- REARM, with the steps that a retirement under a killed stream has put off (R73, R348). DESIGN CHOICE (log 91). -/
def State.rearmNow (s : State) : State :=
  let was := s.job.state
  let s1 := s.rearm
  if was = .killed && !s1.health.waiting.isEmpty then
    let s2 := { s1 with health := { s1.health with waiting := [] }, job := { s1.job with state := .running } }.recheck
    if s2.job.state = .running then { s2 with job := { s2.job with state := .rearming } } else s2
  else s1

/-- DEV_ writes. -/
def State.devWrite (s : State) (o : Nat) (w : Word) : State :=
  let n := w.toNat
  if o = 0x080 then (s.loadCtrl n).freeBuffer
  else if o = 0x084 then s.w1c rLoadStatus 0x60 n
  else if o = 0x08C then (s.loadChunk n).freeBuffer
  else if o = 0x100 then (s.dbRing w).kick
  else if o = 0x104 then s.rw 0x104 0 6 n
  else if o = 0x110 then
    let s := if n.testBit 0 then s.kill else s
    if n.testBit 1 then s.rearmNow else s
  else if o = 0x114 then s.w1c rJobStatus 0x18 n
  else s

/-- Writes of the blocks from CHN_ to SEC_ and INV_. -/
def State.sysWrite (s : State) (b o : Nat) (w : Word) : State :=
  let n := w.toNat
  let k := 0x1000 * b + o
  match b with
  | 1 => if o = 0x010 then s.chnSel w else s
  | 2 => if o = 0x004 then s.irqClear w else if o = 0x00C then s.rw k 0 21 n else s
  | 3 =>
    if o = 0x400 then s.bwSplit w else if o = 0x40C then s.ptSelect w else if o = 0x42C then (s.fillDone w).afterFill
    else if o = 0x430 then s.setReg k (max 1 (n % 65536)) else if o = 0x500 then s.rw k 0 3 n else s
  | 4 =>
    if o = 0x014 then s.setReg k n else if o = 0x018 then s.setArm w else if o = 0x01C then s.setReg k n
    else if o = 0x048 ∨ o = 0x04C then s.pinForce o w else if o = 0x054 then s.rw k 0 5 n
    else if 0x100 ≤ o ∧ o < 0x180 then s.rw k 0 16 n else s
  | 5 => if o = 0x300 then s.rw k 0 25 n else if o = 0x340 then s.rw k 0 2 n else s
  | 6 => if o = 0x008 then s.rw k 0 3 n else s
  | 7 =>
    if o = 0x004 then s.writeCap w else if o = 0x008 then s.rw k 0 4 n
    else if o = 0x00C then (s.rw k 0 4 n).powerOn else if o = 0x010 then (s.rw k 0 13 n).powerOn
    else if o = 0x014 then s.rw k 0 10 n else if o = 0x018 then s.rw k 0 24 n else if o = 0x01C then s.rw k 0 1 n
    else if o = 0x024 then s.rw k 0 3 n else if o = 0x028 then (if s.reg (blkPwr + 0x024) % 8 = 7 then s else s.rw (s.home k) 0 8 n)
    else if o = 0x030 then s.rw k 0 3 n else s
  | 8 => if o = 0x000 then s.rw k 0 14 n else if o = 0x054 then s.rw k 0 3 n else s
  | 9 =>
    if o = 0x04C then s.rollbackCtrl n else if o = 0x060 then s.tokenCtrl n else if o = 0x064 then s.w1c rTokenStatus 6 n
    else if o = 0x070 then s.attestCtrl n else if 0x080 ≤ o ∧ o < 0x0A0 then s.setReg k n else s
  | 10 => if o = 0x000 then s.w1c rInvStatus 0x200 n else if o = 0x060 then s.replay w else s
  | _ => s

/-- Writes of the blocks of units. CAMn_DEFAULT_FE takes a write only under the default stream. -/
def State.unitWrite (s : State) (b o : Nat) (w : Word) : State :=
  let n := w.toNat
  let k := 0x1000 * b + o
  if h : 0x10 ≤ b ∧ b < 0x16 then (if o = 0x340 then s.debugStart ⟨b - 0x10, by omega⟩ w else s)
  else if 0x18 ≤ b ∧ b < 0x1C then (if o = 0x404 then s.rw k 0 4 n else s)
  else if 0x20 ≤ b ∧ b < 0x30 then
    if o = 0x040 then s.rw k 0 16 n
    else if o = 0x044 then (if s.boot.isDefault then (s.rw k 0 2 n).rw k 4 24 n else s.count rClaimIgnored 1)
    else if o = 0x080 then (if b < 0x28 then s.w1c (rSctlStatus (b - 0x20)) 4 n else s)
    else s
  else s

/-- A register write that takes effect. -/
def State.applyReg (s : State) (off : Nat) (w : Word) : State :=
  let o := off % 0x1000
  let b := blockOf off
  if b = 0 then s.devWrite o w else if b < 0x10 then s.sysWrite b o w else s.unitWrite b o w

/-- Whether an offset lies in the upload buffer. DESIGN CHOICE (log 57). -/
def inBuffer (off : Nat) : Bool := decide (0x30000 ≤ off) && decide (off < 0x40000)

/-- Bytes written to the upload buffer. DESIGN CHOICE (log 57). -/
def State.bufferWrite (s : State) (o : Nat) (bs : List Byte) : State :=
  { s with upload := { s.upload with data := putAll (0 : Byte) s.upload.data o bs } }

/-- Registers that the ROM serves during recovery: DEV_LOAD_STATUS and DEV_LOAD_CHUNK (R352). -/
def romServes (off : Nat) : Bool := off == 0x084 || off == 0x08C

/-- HOST_CMD_IGNORED. -/
def rCmdIgnored : Nat := blkHost + 0x038

/-- A register write as it arrives (R266, R268, R372): held before FIRMWARE_UP and during a restart of the management controller, up to 64 writes; the
upload buffer takes its bytes at once. DESIGN CHOICE (log 61). -/
def State.arriveWrite (s : State) (off : Nat) (w : Word) : State :=
  if inBuffer off then s.bufferWrite (off - 0x30000) (leBytes 4 w.toNat)
  else if s.boot.inReset then s
  else if s.mgmt.restart || (!s.boot.up && !(s.boot.recovery && romServes off)) then
    if s.mgmt.held.length < 64 then { s with mgmt := { s.mgmt with held := s.mgmt.held ++ [(off, w.toNat)] } }
    else s.count rCmdIgnored 1
  else s.applyReg off w

/-- A register write from the host: discarded during a trip (R267) and in a discovery, where one that reads as a discovery write without being a full burst
makes the discovery malformed (R252). DESIGN CHOICE (log 61). -/
def State.hostReg (s : State) (off : Nat) (w : Word) : State :=
  if s.trip.isSome then s
  else if s.host.discovery then
    if off % 32 = 0 ∧ w = 0x4353_4944 then { s with host := { s.host with malformed := true } } else s
  else s.arriveWrite off w

/-- Held writes applied in arrival order (R268, R372). -/
def State.applyHeld (s : State) : State :=
  let ws := s.mgmt.held
  ws.foldl (fun s x => s.applyReg x.1 (BitVec.ofNat 32 x.2)) { s with mgmt := { s.mgmt with held := [] } }

end Sys2Proof.Machine
end

