-- ==== Sys2Proof/Machine/HostPort.lean ====
section
/-! DEFINITION. Machine/HostPort.lean: what a host burst reaches, the bootstrap block, the trip status page, mode registers, and the management sideband
(R37, R243-R257, R266, R267).

A burst arrives at a canonical address; the aperture offset behind it is that of the description in effect. Bit i of a data mask disables byte i. -/

namespace Sys2Proof.Machine

open Sys2Proof

/-! ## The bootstrap block (R250) -/

/-- STATE of the bootstrap block. -/
def State.bootState (s : State) : Nat :=
  b2n s.boot.up + 2 * b2n s.mgmt.restart + 4 * b2n s.host.committed + 8 * b2n s.host.discovery + 16 * (s.regField rGuarantee 0 1) + 32 * b2n s.boot.isDefault

/-- IL_STATUS. -/
def State.ilStatus (s : State) : Nat :=
  s.host.result % 16 + 16 * (if s.host.discovery then 2 else b2n s.host.committed) + 256 * (s.host.bit % 64)

/-- One 32-bit half of a 64-bit value: the low one at offset 0, the high one at offset 4. -/
def half (v o : Nat) : Nat := if o % 8 = 0 then v % 2 ^ 32 else v / 2 ^ 32 % 2 ^ 32

/-- The word of the bootstrap block at a 4-byte offset. -/
def State.bootWord (s : State) (o : Nat) : Nat :=
  let p := s.host
  if o = 0x000 then 0x3656_4C46
  else if o = 0x004 then 1 + 65536 * s.bootState
  else if o = 0x008 then s.devId
  else if o = 0x00C then (if s.boot.up then s.boot.release else 0)
  else if o = 0x010 then 0xFFFC_0000
  else if o = 0x014 then 1
  else if o = 0x01C then 2
  else if o = 0x024 then s.ilStatus
  else if o = 0x028 then p.detail
  else if o = 0x02C then p.captures.length
  else if 0x030 ≤ o ∧ o < 0x038 then half p.staged.offset o
  else if 0x040 ≤ o ∧ o < 0x120 then half (p.staged.masks.getD ((o - 0x040) / 8) 0) o
  else if 0x120 ≤ o ∧ o < 0x128 then half p.active.offset o
  else if 0x128 ≤ o ∧ o < 0x208 then half (p.active.masks.getD ((o - 0x128) / 8) 0) o
  else if 0x300 ≤ o ∧ o < 0x500 then
    let c := p.captures.getD ((o - 0x300) / 16) (0, 0)
    half (if o % 16 < 8 then c.1 else c.2) o
  else 0

/-- Bytes of an enabled part of a value: byte `i` of `new` where the mask leaves it enabled. DESIGN CHOICE (log 55). -/
def maskedBytes (old new : List Byte) (mask : Nat) : List Byte :=
  (List.range old.length).map (fun i => if mask.testBit i then old.getD i 0 else new.getD i 0)

/-- A 64-bit field of a bootstrap burst merged with what is written: `at0` is the field's byte in the burst. -/
def mergeDouble (old at0 : Nat) (data : List Byte) (mask : Nat) : Nat :=
  leNat (maskedBytes (leBytes 8 old) (slice data at0 8) (mask >>> at0))

/-- IL_CTRL: COMMIT, DISCOVER_START, DISCOVER_END or IDENTITY; other values are ignored. -/
def State.ilCtrl (s : State) (v : Nat) : State :=
  match v with
  | 1 => s.ilCommit
  | 2 => s.discoverStart
  | 3 => s.discoverEnd
  | 4 => s.ilIdentity
  | _ => s

/-- A write to bytes `o` to `o + 31` of the bootstrap block: the staged description takes the enabled bytes, IL_CTRL a whole word; RO fields discard. DESIGN CHOICE (log 56). -/
def State.bootWrite (s : State) (o : Nat) (data : List Byte) (mask : Nat) : State :=
  if o = 0x020 then
    let off := mergeDouble s.host.staged.offset 0x10 data mask
    let s := { s with host := { s.host with staged := { s.host.staged with offset := off % 2 ^ 33 / 32 * 32 } } }
    if mask % 16 = 0 then s.ilCtrl (leAt data 0 4) else s
  else if 0x040 ≤ o ∧ o < 0x120 then
    let i := (o - 0x040) / 8
    let new := (List.range 28).map (fun j =>
      let old := s.host.staged.masks.getD j 0
      if i ≤ j ∧ j < i + 4 then mergeDouble old (8 * (j - i)) data mask else old)
    { s with host := { s.host with staged := { s.host.staged with masks := new } } }
  else s

/-! ## The trip status page (R267) -/

/-- The hottest reading, 0 with none. DESIGN CHOICE (log 59). -/
def PowerCtl.hottest (p : PowerCtl) : Int :=
  match p.sensors with
  | [] => 0
  | e :: es => es.foldl (fun m x => max m (signed 16 x.2)) (signed 16 e.2)

/-- The word of the trip status page at a 4-byte offset. -/
def State.tripWord (s : State) (t : Trip) (o : Nat) : Nat :=
  if o = 0x000 then 0x5049_5254
  else if o = 0x004 then 1 + 65536 * t.state
  else if o = 0x008 then s.devId
  else if o = 0x00C then (if s.boot.up then s.boot.release else 0)
  else if 0x010 ≤ o ∧ o < 0x018 then half t.tick o
  else if o = 0x018 then t.tj % 65536 + 65536 * (t.sensor % 65536)
  else if o = 0x01C then unsigned 16 s.pwr.hottest + 65536 * s.regField (rPwr 0x01C) 16 16
  else if 0x020 ≤ o ∧ o < 0x028 then half t.stream o
  else 0

/-! ## Bursts (R252, R254-R257) -/

/-- What a host burst reaches: the first of the list of R254 that matches. -/
inductive Target where
  | bootstrap (o : Nat)
  | register (off : Nat)
  | window (m : WinMap) (o : Nat)
  | unmapped
  deriving DecidableEq, Repr

/-- The target of a burst at a canonical address. -/
def State.target (s : State) (a : Nat) : Target :=
  if inBootstrap a then .bootstrap (a % 2048)
  else
    let h := s.host.active.aperture a
    if isRegPage (h / 4096) then .register (h - 4096 * regPageFirst)
    else match s.mapOf (h / 4096) with
      | some m => .window m (h % 4096)
      | none => .unmapped

/-- Whether the host port answers: neither RESET_N nor HC_RESET_N is low (R247). -/
def State.portUp (s : State) : Bool := !s.boot.inReset && !s.host.resetLow

/-- A channel that carries a burst has completed its initialisation (R381). DESIGN CHOICE (log 54). -/
def State.trainedBy (s : State) (a : Nat) : State := s.onHost (canonChannel a) (fun c => { c with trained := true, isX := Sys2Proof.Config.hostX (canonChannel a) })

/-- Words as bytes. -/
def wordBytes (ws : List Nat) : List Byte := ws.flatMap (leBytes 4)

/-- The eight register words of a burst, read in turn (R254). -/
def State.regBurst : Nat → State → Nat → List Nat × State
  | 0, s, _ => ([], s)
  | n + 1, s, off =>
    let r := s.regRead off
    let rest := r.2.regBurst n (off + 4)
    (r.1 :: rest.1, rest.2)

/-- Upsets of the window SRAM's words that a host burst at byte `a` brings to light: bit `w` of `upset` a single wrong bit of word `w`, bit `4 + w` more of them
(R257). DESIGN CHOICE (log 55). -/
def State.winUpset (s : State) (a upset : Nat) : State :=
  { s with winErr := (List.range 4).foldl (fun m w =>
      if upset.testBit (4 + w) then put 0 m (a / 8 + w) 2 else if upset.testBit w then put 0 m (a / 8 + w) (max 1 (look 0 m (a / 8 + w))) else m) s.winErr }

/-- The data that a read returns, and the state after it. Upsets of the window SRAM are counted, and uncorrectable ones raise HOST_LINK (R257). -/
def State.readTarget (s : State) (t : Target) (upset : Nat) : List Byte × State :=
  match s.trip with
  | some x =>
    (match t with
     | .bootstrap o => (wordBytes ((List.range 8).map (fun i => s.tripWord x (o + 4 * i))), s)
     | .register o => (wordBytes ((List.range 8).map (fun i => s.tripWord x (o % 4096 + 4 * i))), s)
     | _ => (List.replicate 32 0, s))
  | none =>
    match t with
    | .bootstrap o => (wordBytes ((List.range 8).map (fun i => s.bootWord (o + 4 * i))), s)
    | .register o =>
      if s.host.discovery then (List.replicate 32 0, s)
      else let r := s.regBurst 8 o; (wordBytes r.1, r.2)
    | .window m o =>
      if s.host.discovery then (List.replicate 32 0, s)
      else
        let a := 4096 * m.window + o
        let s := s.winUpset a upset
        let ues := s.winUes a 32
        let s := (s.winCes a 32).count (blkHost + 0x034) ues
        (s.winBytes a 32, if 0 < ues then s.irq .hostLink else s)
    | .unmapped => (List.replicate 32 0, s)

/-- HOST_READ_BURST: what the host reads stands in `host.out`. -/
def State.hostRead (s : State) (a upset : Nat) : State :=
  if s.portUp then
    let s := s.trainedBy a
    let r := s.readTarget (s.target a) upset
    { r.2 with host := { r.2.host with out := r.1 } }
  else s

/-- Registers of a burst written: each takes its word whole, or ignores it where the mask disables a part of it; the upload buffer takes the bytes enabled. DESIGN CHOICE (log 56). -/
def State.regsWrite (s : State) (off : Nat) (data : List Byte) (mask : Nat) : Nat → State
  | 0 => s
  | n + 1 =>
    let s := s.regsWrite off data mask n
    let o := off + 4 * n
    let m := mask >>> (4 * n) % 16
    let w := slice data (4 * n) 4
    if m = 15 then s
    else if inBuffer o then s.bufferWrite (o - 0x30000) (maskedBytes (lookAll (0 : Byte) s.upload.data (o - 0x30000) 4) w m)
    else if m = 0 then s.hostReg o (BitVec.ofNat 32 (leNat w))
    else s.count rCmdIgnored 1

/-- A host write to a window page (R37, R255): discarded without HOST_WRITE, and during a drain. DESIGN CHOICE (log 58). -/
def State.winHostWrite (s : State) (m : WinMap) (o : Nat) (data : List Byte) (mask : Nat) : State :=
  if !m.hostWrite then s.count (blkHost + 0x024) 1
  else if s.loader.stage = .draining then s
  else
    let a := 4096 * m.window + o
    { s with window := putAll (0 : Byte) s.window a (maskedBytes (s.winBytes a 32) data mask)
             winErr := (List.range 4).foldl (fun m w => if mask >>> (8 * w) % 256 = 0 then put 0 m (a / 8 + w) 0 else m) s.winErr }

/-- A discovery write: its bytes 0-3 hold 0x4353_4944. DESIGN CHOICE (log 56). -/
def isDiscovery (data : List Byte) (mask : Nat) : Bool := leAt data 0 4 == 0x4353_4944 && mask % 16 == 0

/-- A host write whose data are right, served by its target. DESIGN CHOICE (log 55). -/
def State.writeTarget (s : State) (t : Target) (a : Nat) (data : List Byte) (mask : Nat) : State :=
  if s.host.discovery && isDiscovery data mask then s.capture a data (mask == 0)
  else match t with
    | .bootstrap o => s.bootWrite o data mask
    | .register o => if s.host.discovery then s else s.regsWrite o data mask 8
    | .window m o => if s.host.discovery then s else s.winHostWrite m o data mask
    | .unmapped => if s.host.discovery then s else s.count (blkHost + 0x020) 1

/-- HOST_WRITE_BURST: link ECC, then what the write reaches; during a trip every write is discarded (R257, R267). DESIGN CHOICE (log 55). -/
def State.hostStore (s : State) (a : Nat) (data : List Byte) (mask ecc : Nat) : State :=
  if s.portUp then
    let s := s.trainedBy a
    let t := s.target a
    if ecc = 2 then
      let s := (s.count (blkHost + 0x02C) 1).irq .hostLink
      match t with
      | .window m _ => { s with linkErr := put false s.linkErr m.window true }
      | _ => s
    else
      let s := if ecc = 1 then s.count (blkHost + 0x028) 1 else s
      if s.trip.isSome then s else s.writeTarget t a data mask
  else s

/-! ## Mode registers and HC_RESET_N (R244, R247) -/

/-- MR_WRITE: stored at the set point that FSP-WR names; MR4 to MR8 are the device's own; a write that selects 8B mode is ignored and counted. PRESUMED (log 8). -/
def State.mrWrite (s : State) (n mr v : Nat) : State :=
  if !s.portUp then s
  else if mr = 3 ∧ field v 3 2 = 1 then s.count rCmdIgnored 1
  else if 4 ≤ mr ∧ mr ≤ 8 then s
  else s.onHost n (fun c =>
    if mr = 16 then { c with modes := put 0 c.modes 16 v, fsp := field v 2 2 }
    else { c with modes := put 0 c.modes (256 * (look 0 c.modes 16 % 4) + mr) v })

/-- HC_RESET: mode registers, set points and training return to their reset values. -/
def State.hcReset (s : State) : State :=
  ({ s with host := { s.host with chans := Vector.replicate 4 HostChan.idle, resetLow := true } }).powerOn

/-- HC_RESET_RELEASE. -/
def State.hcRelease (s : State) : State := { s with host := { s.host with resetLow := false } }

/-! ## The management sideband (R266) -/

/-- The end of the register page. -/
def regEnd : Nat := 0x4_0000

/-- A command NACKed, or accepted with the bytes it returns. -/
def State.nacked (s : State) : State := { s with mgmt := { s.mgmt with nack := true, out := [] } }
def State.acked (s : State) (out : List Byte) : State := { s with mgmt := { s.mgmt with nack := false, out := out } }

/-- Whether an offset is one that REG_WRITE and REG_ADDR take. -/
def mgmtOffset (off : Nat) (pecOk : Bool) : Bool := pecOk && off % 4 == 0 && decide (off < regEnd)

/-- REG_WRITE. -/
def State.mgmtWrite (s : State) (off : Nat) (w : Word) (pecOk : Bool) : State :=
  if !s.boot.inReset && mgmtOffset off pecOk then (s.arriveWrite off w).acked [] else s.nacked

/-- REG_ADDR. -/
def State.mgmtAddr (s : State) (off : Nat) (pecOk : Bool) : State :=
  if !s.boot.inReset && mgmtOffset off pecOk then (({ s with mgmt := { s.mgmt with pointer := off } }) : State).acked [] else s.nacked

/-- REG_READ: one register; during a trip the trip status page stands in its place. -/
def State.mgmtRead (s : State) : State :=
  let off := s.mgmt.pointer
  if !s.boot.inReset && decide (off < regEnd) then
    let r := match s.trip with
      | some t => (s.tripWord t (off % 4096), s)
      | none => s.regRead off
    (({ r.2 with mgmt := { r.2.mgmt with pointer := off + 4 } }) : State).acked (leBytes 4 r.1)
  else s.nacked

/-- MGMT_STATE: the bootstrap block's STATE and IL_STATUS. DESIGN CHOICE (log 59). -/
def State.mgmtState (s : State) : State :=
  if s.boot.inReset then s.nacked else s.acked (leBytes 2 s.bootState ++ leBytes 2 s.ilStatus)

/-- DYNAMIC_ADDRESS_ASSIGNMENT. -/
def State.mgmtDynamic (s : State) (a : Nat) : State :=
  if s.boot.inReset then s else { s with mgmt := { s.mgmt with dynamic := some a } }

end Sys2Proof.Machine
end

