-- ==== Sys2Proof/Machine/Boot.lean ====
section
/-! DEFINITION. Machine/Boot.lean: reset, the boot chain, the start of firmware, restarts of the management controller and the end of a trip
(R53, R268, R337, R351-R353, R368, R369, R372). -/

namespace Sys2Proof.Machine

open Sys2Proof

/-! ## Reset (R368) -/

/-- What outlives a reset: the part, the fuses and what they say, flash, stack memory, TRIPS, the count of random draws, the free values taken, and the
commands that wait. DESIGN CHOICE (log 10). -/
def State.afterReset (s : State) : State :=
  { State.reset with
    part := s.part, free := s.free, otp := s.otp, flash := s.flash, mem := s.mem, memBad := s.memBad, pending := s.pending
    regs := put 0 (regsReset s.part) (rPwr 0x01C) (BitVec.ofNat 32 (s.regField (rPwr 0x01C) 16 16 * 65536 + 1))
    cores := s.cores.map (fun c => { Core.reset with spareUsed := c.spareUsed, spareMap := c.spareMap })
    ports := s.ports.map (fun p => { Port.down with retired := p.retired })
    memStacks := s.memStacks.map (fun k =>
      let good := (List.range 9).filter (fun i => !k.retiredLinks.getLsbD i)
      { Stack.reset with
        retiredLinks := k.retiredLinks, retired := k.retired
        rotation := (good.take 8).foldl (fun a i => a ||| linkBit i) 0, spare := (good.drop 8).foldl (fun a i => a ||| linkBit i) 0 })
    power := { State.reset.power with retired := s.power.retired }
    sec := .reset s.sec.draws }

/-- RESET_ASSERT: RESET_N low resets the whole device. -/
def State.resetLow (s : State) : State := s.afterReset

/-- PWR_OK_FALL: a low PWR_OK acts as a low RESET_N. -/
def State.powerLost (s : State) : State := s.afterReset

/-! ## From RESET_N high to firmware (R53, R349-R352, R369) -/

/-- RESET_RELEASE: straps are latched, domain 93 switched on, the flash directory read and the images checked; with PWR_OK low the device stays in reset. DESIGN CHOICE (log 9). -/
def State.released (s : State) (straps mgmtAddr : Nat) (pwrOk answers8D : Bool) : State :=
  if !s.boot.inReset || !pwrOk then s
  else
    ({ s with
      boot := { s.boot with inReset := false, straps := straps, mgmtAddr := mgmtAddr }
      power := { s.power with on := s.power.on ||| BitVec.ofNat 96 (2 ^ 93) } } : State).romBoot (!answers8D)

/-- The sources that a BOOT_SEL value names, in order (R53). -/
def bootSources (straps : Nat) : List Nat :=
  match straps % 8 with
  | 1 => [0, 1, 3]
  | 2 => []
  | 3 => [0, 1]
  | _ => [3]

/-- The board record of the flash directory, where its CRC-32C is right: the PMBus address of each rail (R349). -/
def State.boardRecord (s : State) : Option (List Byte) :=
  match s.region 5 with
  | some r =>
    let bs := s.flashBytes r.1 11
    if 11 ≤ r.2 ∧ (crc32c (2 ^ 32 - 1) (bs.take 7) ^^^ (2 ^ 32 - 1)) = u32 bs 7 then some (bs.take 7) else none
  | none => none

/-- The rails' addresses of the board record in PWR_RAIL_CFG; without a record its reset values stand (R328, R349). DESIGN CHOICE (log 114). -/
def State.readBoard (s : State) : State :=
  match s.boardRecord with
  | some bs => (List.range 7).foldl (fun s n => s.setRegField (bank n (blkPwr + 0x028)) 0 7 (leAt bs n 1)) s
  | none => s

/-- FIRMWARE_UP (R53, R372): Solder ports that trained, the board record, the ladder, the audit trail, held writes, then the stream of the boot source unless a held write has
started a load. Nothing under recovery. DESIGN CHOICE (log 62); DESIGN CHOICE (log 102). -/
def State.firmwareUp (s : State) (ports : List (Nat × Int)) : State :=
  if s.boot.inReset || s.boot.recovery || s.boot.up then s
  else
    let s := ports.foldl (fun s p => if p.1 < s.part.solderPorts then s.trainPort p.1 p.2 else s) s
    let s : State := { s with boot := { s.boot with up := true } }
    let s := s.readBoard.burnAtStart.trailCheck.applyHeld
    if s.loadBusy then s else s.trySources (bootSources s.boot.straps)

/-! ## Restarts of the management controller (R268, R337) -/

/-- MANAGEMENT_CONTROLLER_RESTART. -/
def State.mcRestart (s : State) : State :=
  if s.boot.up && s.trip.isNone then { s with mgmt := { s.mgmt with restart := true } } else s

/-- TRIP_RESTART: the device has cooled and held; the management controller restarts (STATE 3). DESIGN CHOICE (log 64). -/
def State.tripRestart (s : State) : State :=
  match s.trip with
  | some t => if t.state = 2 then { s with trip := some { t with state := 3 }, mgmt := { s.mgmt with restart := true } } else s
  | none => s

/-- No stream is loaded after a trip: LOAD_FAILED. DESIGN CHOICE (log 64). -/
def State.noReload (s : State) : State :=
  ({ s.setRegField rGuarantee 0 1 0 with
      stream := none, chans := [], pages := []
      boot := { s.boot with isDefault := false, flashSlot := 0 }
      job := { s.job with state := .noStream, lists := [] } } : State).irq .loadFailed

/-- The end of a trip: the registers return; with RELOAD the stream that ran is loaded again from its copy, with every check. DESIGN CHOICE (log 64). -/
def State.tripEnd (s : State) (t : Trip) : State :=
  let s := ({ s with trip := none } : State).powerOn
  let rom := s.boot.isDefault
  if s.regField (rPwr 0x01C) 0 1 = 0 then s.noReload
  else if t.image.isEmpty && !rom then s
  else
    let s := s.openLoad s.loader.origin []
    match s.checkImage t.image rom with
    | (some (f, c), s) => (s.loadFailed f c).noReload
    | (none, s) => s

/-- Orders 3 to 6 of the boot sequence again: images checked and chosen as before, firmware up unless the ROM enters recovery. DEDUCED (log 63). -/
def State.reboot (s : State) : State :=
  let s := s.romBoot s.boot.slow
  if s.boot.recovery then s else ({ s with boot := { s.boot with up := true } } : State).burnAtStart

/-- MC_RESTART_END: the boot sequence has been repeated, held writes are applied and MC_RESTART is raised; after a trip the stream is loaded again. DEDUCED (log 63). -/
def State.mcRestartEnd (s : State) : State :=
  if !s.mgmt.restart then s
  else
    let s := ({ s with mgmt := { s.mgmt with restart := false } } : State).reboot
    let s := match s.trip with
      | some t => if t.state = 3 then s.tripEnd t else s
      | none => s
    (if s.boot.up then s.applyHeld else s).irq .mcRestart

end Sys2Proof.Machine
end

