-- ==== Sys2Proof/Machine/Pending.lean ====
section
/-! DEFINITION. Machine/Pending.lean: the scratchpad lines that a command reads, and the pending marks that keep its reads waiting (R75, R121). -/

namespace Sys2Proof.Machine

open Sys2Proof

/-- Whether an elementwise command reads B and C (R91). -/
def elementwiseReads : Body → Option (VecOps × Bool × Bool)
  | .vadd o => some (o, true, false)
  | .vsub o => some (o, true, false)
  | .vmul o => some (o, true, false)
  | .vfma o => some (o, true, true)
  | .vmax o => some (o, true, false)
  | .vmin o => some (o, true, false)
  | .vunary o => some (o, false, false)
  | .vcmp o => some (o, true, false)
  | .vsel o => some (o, true, true)
  | .vexp2 o => some (o, false, false)
  | .vlog2 o => some (o, false, false)
  | .vrecip o => some (o, false, false)
  | .vrsqrt o => some (o, false, false)
  | .vact o => some (o, o.func == 1 || o.func == 2, o.func == 2)
  | .vreduce o => some (o, false, false)
  | .vqs2 o => some (o, false, false)
  | .vargmax o => some (o, false, false)
  | _ => none

/-- The lines that a matrix command reads, by its formats (R76). -/
def matLines (c : Core) (s2 : Bool) (o : MatmulOps) : List Nat :=
  match Fmt.ofCode o.fmtA, Fmt.ofCode o.fmtB with
  | some fa, some fb => matReads c s2 o fa fb
  | _, _ => []

/-- The lines that a convolution reads: its descriptor, and what a descriptor without a fault names (R157, R160). -/
def convLines (diag : Bool) (o : WConvOps) (c : Core) : List Nat :=
  let d := parseWindow (c.bytes (64 * o.wdescLine) 64)
  match Fmt.ofCode d.fmtA, Fmt.ofCode o.fmtB with
  | some fa, some fb =>
    let p := convPlan diag o c d fa fb
    if p.bad then [o.wdescLine] else convReads c o p
  | _, _ => [o.wdescLine]

/-- The lines that a quantising command reads: its descriptor, its operands and the second-level scales (R105). -/
def quantLines (c : Core) (descLine count : Nat) (reads : List Nat) : List Nat :=
  descLine :: (reads ++ (parseQuant (c.bytes (64 * descLine) 64)).s2Reads count)

/-- The lines that VEPILOGUE reads (R107). -/
def epilogueLines (c : Core) (o : VecOps) (w : Nat) : List Nat :=
  if o.func.testBit 7 then quantLines c (o.imm % 2 ^ 24) (o.rowsM1 + 1) (aLines o w ++ epiLines o) else aLines o w ++ epiLines o

/-- The lines that a pooling command reads (R168). -/
def poolLines (bwd : Bool) (c : Core) (o : VecOps) : List Nat :=
  let d := poolDesc c o
  let w := ((Fmt.ofCode d.fmtA).getD .int8).width
  o.imm % 2 ^ 24 :: (if d.badPool o then [] else if bwd then poolBwdReads o d w else poolReads o d w)

/-- The scratchpad lines that a command reads before it writes. Commands that move data in steps look at each line as they come to it. -/
def bodyReads (c : Core) (b : Body) : List Nat :=
  match elementwiseReads b with
  | some (o, x, y) => vecReads o ((Fmt.ofCode o.fmtIn).getD .int8) x y
  | none =>
    match b with
    | .matmul o => matLines c false o
    | .matmulS2 o => matLines c true o
    | .wconv o => convLines false o c
    | .wconvDiag o => convLines true o c
    | .vepilogue o => epilogueLines c o ((Fmt.ofCode o.fmtIn).getD .int8).width
    | .vquant o => quantLines c (o.imm % 2 ^ 24) (vectorCount o) (aLines o ((Fmt.ofCode o.fmtIn).getD .int8).width)
    | .vdequant o => vdqReads c o ((Fmt.ofCode o.fmtIn).getD .int8)
    | .vrescale o => aLines o 32 ++ bLinesOf o ++ cLinesOf o
    | .vpool o => poolLines false c o
    | .vpoolBwd o => poolLines true c o
    | .spCopy o => blockLines o.srcLine (o.rowsM1 + 1) o.lines o.srcPitch
    | _ => []

/-- Whether a line that the command reads bears the pending mark of a write still to come (R121): a read of a tile that is draining waits (R75). -/
def State.readsPending (s : State) (q : QueueId) (b : Body) : Bool :=
  let c := s.cores[coreOf q.unit]
  let ps := c.pendingLines q
  !ps.isEmpty && (bodyReads c b).any (fun l => ps.contains l)

end Sys2Proof.Machine
end

