-- ==== Sys2Proof/Machine/Launch.lean ====
section
/-! DEFINITION. Machine/Launch.lean: the work of a command by its body, how a command of a queue is presented, and what any command of the block does to a
device held in reset (R63, R64, R67, R368). -/

namespace Sys2Proof.Machine

open Sys2Proof

/-- A header with no flag. -/
def Header.plain : Header := ⟨false, false, false, false, false, 0, false, 0, 0, 0⟩

/-- The header of a command in progress. -/
def State.headerOf (s : State) (h : Holder) : Header := match s.prog h with | some e => e.cmd.hdr | none => Header.plain

/-- The work of a command in progress, by its body. -/
def runBody (b : Body) (h : Holder) (s : State) : State :=
  match b with
  | .nop => nopWork h s
  | .launchAt o => launchAtWork o h s
  | .jump o => jumpWork o h s
  | .barrier o => barrierWork o h s
  | .complete _ => completeWork h s
  | .timeRead o => timeReadWork o h s
  | .xfer o => xferWork (s.headerOf h) o h s
  | .pgPolicy o => pgPolicyWork o h s
  | .pgTouch o => pgTouchWork o h s
  | .spFill o => spFillWork o h s
  | .spCopy o => spCopyWork o h s
  | .nWrite o => nWriteWork o h s
  | .spCredit o => spCreditWork o h s
  | .matmul o => matmulWork false o h s
  | .matmulS2 o => matmulWork true o h s
  | .vpoolBwd o => vpoolBwdWork o h s
  | .wconv o => wconvWork o h s
  | .wconvDiag o => wconvDiagWork o h s
  | .ewin o => ewinWork o h s
  | .ppParam o => ppParamWork o h s
  | .ppBand o => ppBandWork o h s
  | .ppBParam o => ppBParamWork o h s
  | .ppBRows o => ppBRowsWork o h s
  | .pub o => pubWork o h s
  | .pubOpen o => pubOpenWork o h s
  | .pinSet o => pinSetWork o h s
  | .pinPulse o => pinPulseWork o h s
  | .pgStart o => pgStartWork o h s
  | .pgStop o => pgStopWork o h s
  | .capArm o => capArmWork o h s
  | .capDisarm o => capDisarmWork o h s
  | .sctlWrite o => sctlWriteWork o h s
  | .sctlRead o => sctlReadWork o h s
  | .sctlCcc o => sctlCccWork o h s
  | .sldColl o => sldCollWork o h s
  | .ethFlow o => ethFlowWork o h s
  | .ethSend o => ethSendWork (s.headerOf h) o h s
  | .ethGcl o => ethGclWork o h s
  | .invRecord o => invRecordWork o h s
  | .invIndicate o => invIndicateWork o h s
  | .vadd o => vaddWork o h s
  | .vsub o => vsubWork o h s
  | .vmul o => vmulWork o h s
  | .vfma o => vfmaWork o h s
  | .vmax o => vmaxWork o h s
  | .vmin o => vminWork o h s
  | .vunary o => vunaryWork o h s
  | .vcmp o => vcmpWork o h s
  | .vsel o => vselWork o h s
  | .vexp2 o => vexp2Work o h s
  | .vlog2 o => vlog2Work o h s
  | .vrecip o => vrecipWork o h s
  | .vrsqrt o => vrsqrtWork o h s
  | .vact o => vactWork o h s
  | .vreduce o => vreduceWork o h s
  | .vepilogue o => vepilogueWork o h s
  | .vqs2 o => vqs2Work o h s
  | .vquant o => vquantWork o h s
  | .vdequant o => vdequantWork o h s
  | .vrescale o => vrescaleWork o h s
  | .vpool o => vpoolWork o h s
  | .vargmax o => vargmaxWork o h s

/-- Whether only a pending mark on a line that it reads keeps the next command of a queue from its work (R121). DESIGN CHOICE (log 105). -/
def State.holdsRead (s : State) (q : QueueId) (c : Command) : Bool :=
  s.live q && decide (s.fetch q = some c) && (s.blocked q c.hdr c.body).isNone && s.readsPending q c.body

/-- A command of a queue presented to the device (R63): only the command that the queue stands at is considered. DESIGN CHOICE (log 3). -/
def State.present (s : State) (q : QueueId) (h : Header) (b : Body) (work : Holder → State → State) : State :=
  if s.holdsRead q ⟨h, b⟩ then s.onQueue q (fun k => { k with wait := .running }) else s.issue q ⟨h, b⟩ work

/-- Whether a launch timer's command waits for a line that it reads: its tick then does not start it yet (R121). DESIGN CHOICE (log 105). -/
def State.tickHeld (s : State) (timer : Nat) : Bool :=
  match (look LaunchTimer.unused s.timers timer).waiting with
  | none => false
  | some q => match s.fetch q with | none => false | some c => s.readsPending q c.body

/-- What follows a change of phase: the power controller takes the phase's points (R66, R325). -/
def State.afterPhase (s : State) : State := s.powerOn

/-! ## What no command undoes -/

/-- A generation of a key slot is enrolled once and revoked once: its state only rises, and a key that stands stays (R354, R355). -/
def Generation.burn (old new : Generation) : Generation :=
  if old.state = 0 then new else ⟨max old.state new.state, old.modulus, old.slh⟩

/-- Counts in fuses only rise; sets of bits only grow. -/
def burnTable (f : Nat → Nat → Nat) (old new : Table Nat) : Table Nat :=
  if new = old then old else new.foldl (fun m e => put 0 m e.1 (f (look 0 m e.1) e.2)) old

/-- A list of retired elements only grows. -/
def burnList (old new : List Nat) : List Nat := old ++ new.filter (fun x => !old.contains x)

/-- Fuses burnt: one-time programmable cells, which nothing clears (R342, R353-R355, R313). DEDUCED (log 97). -/
def Otp.burn (old new : Otp) : Otp :=
  { slots := Vector.ofFn (fun i => Vector.ofFn (fun g => old.slots[i][g].burn new.slots[i][g]))
    ladder := max old.ladder new.ladder
    vendorOff := old.vendorOff || new.vendorOff
    invarOff := old.invarOff || new.invarOff
    audit := max old.audit new.audit
    units := burnList old.units new.units
    sequencers := burnList old.sequencers new.sequencers
    quadrants := burnTable Nat.lor old.quadrants new.quadrants
    columns := burnTable max old.columns new.columns
    stackRows := burnTable max old.stackRows new.stackRows }

/-- What a command leaves: the part and the commands that wait stay, RESET_N stays as it is, and fuses are only burnt. DEDUCED (log 97). -/
def State.settle (s t : State) : State :=
  { t with part := s.part, pending := s.pending, otp := s.otp.burn t.otp, boot := { t.boot with inReset := s.boot.inReset } }

/-- What a command of the block does: held in reset the device does nothing (R368). DESIGN CHOICE (log 6); DESIGN CHOICE (log 9). -/
def State.act (s : State) (f : State → State) : Host.Outcome State Fault Refusal := .next (if s.boot.inReset then s else s.settle (f s))

/-- Time passes while no command waits: by a free number of ticks of the local clock, corrected as its frequency and the slew say, and not in reset (R214-R216).
DESIGN CHOICE (log 2). DESIGN CHOICE (log 103). -/
def State.idle (s : State) : State :=
  if s.boot.inReset then s
  else
    let a := s.time.advance (Sys2Proof.Config.idleTicks s.free)
    { s with now := (s.now + a.1) % 2 ^ 64, free := s.free + 1, time := a.2 }

end Sys2Proof.Machine
end

