-- ==== Sys2Proof/Machine/RunArray.lean ====
section
/-! DEFINITION. Machine/RunArray.lean: the meanings of array and window commands (R85, R96, R160, R162, R166). -/

namespace Sys2Proof.Machine

open Sys2Proof

/-- MATMUL (R85). -/
def execMatmul (q : QueueId) (h : Header) (o : MatmulOps) (s : State) : Host.Outcome State Fault Refusal :=
  s.act (fun s => s.present q h (.matmul o) (matmulWork false o))

/-- MATMUL_S2 (R96). -/
def execMatmulS2 (q : QueueId) (h : Header) (o : MatmulOps) (s : State) : Host.Outcome State Fault Refusal :=
  s.act (fun s => s.present q h (.matmulS2 o) (matmulWork true o))

/-- WCONV (R160). -/
def execWconv (q : QueueId) (h : Header) (o : WConvOps) (s : State) : Host.Outcome State Fault Refusal :=
  s.act (fun s => s.present q h (.wconv o) (wconvWork o))

/-- WCONV_DIAG (R162). -/
def execWconvDiag (q : QueueId) (h : Header) (o : WConvOps) (s : State) : Host.Outcome State Fault Refusal :=
  s.act (fun s => s.present q h (.wconvDiag o) (wconvDiagWork o))

/-- EWIN (R166). -/
def execEwin (q : QueueId) (h : Header) (o : EwinOps) (s : State) : Host.Outcome State Fault Refusal :=
  s.act (fun s => (s.present q h (.ewin o) (ewinWork o)).kick)

end Sys2Proof.Machine
end

