-- ==== Sys2Proof/Machine/RunHost.lean ====
section
/-! DEFINITION. Machine/RunHost.lean: the meanings of register writes that have rows of their own, the host port and the management sideband (R9, R10, R28, R243-R268). -/

namespace Sys2Proof.Machine

open Sys2Proof

/-- A write of IL_CTRL through the bootstrap block: discarded during a trip and while the port does not answer. -/
def State.ilWrite (s : State) (v : Nat) : State := if s.portUp && s.trip.isNone then s.ilCtrl v else s

/-- CHN_SEL (R28): a write of CHN_SEL. -/
def execChnSel (w : Word) (s : State) : Host.Outcome State Fault Refusal :=
  s.act (fun s => s.hostReg 0x1010 w)

/-- CHN_SNAP_COPY (R28). -/
def execChnSnapCopy (s : State) : Host.Outcome State Fault Refusal :=
  s.act (fun s => s.snapCopy)

/-- LOAD_START (R49): a write of DEV_LOAD_CTRL with START. -/
def execLoadStart (w : Word) (s : State) : Host.Outcome State Fault Refusal :=
  s.act (fun s => (s.hostReg 0x080 (w ||| 1)).afterPhase)

/-- LOAD_CHUNK (R54): a write of DEV_LOAD_CHUNK. -/
def execLoadChunk (w : Word) (s : State) : Host.Outcome State Fault Refusal :=
  s.act (fun s => s.hostReg 0x08C w)

/-- LOAD_ABORT (R54): a write of DEV_LOAD_CTRL with ABORT and without START. -/
def execLoadAbort (w : Word) (s : State) : Host.Outcome State Fault Refusal :=
  s.act (fun s => s.hostReg 0x080 ((w &&& 0xFFFF_FFFE) ||| 2))

/-- DRAIN_COMPLETE (R51). -/
def execDrainComplete (s : State) : Host.Outcome State Fault Refusal :=
  s.act (fun s => s.drained.freeBuffer)

/-- DRAIN_TIMEOUT (R51). -/
def execDrainTimeout (s : State) : Host.Outcome State Fault Refusal :=
  s.act (fun s => s.drainForced.freeBuffer)

/-- LOAD_FINISH (R51). -/
def execLoadFinish (s : State) : Host.Outcome State Fault Refusal :=
  s.act (fun s => (s.loadFinish.powerOn).kick)

/-- DB_RING (R70): a write of DEV_DB_RING. -/
def execDbRing (w : Word) (s : State) : Host.Outcome State Fault Refusal :=
  s.act (fun s => s.hostReg 0x100 w)

/-- KILL (R72): a write of DEV_JOB_CTRL with KILL and without REARM. -/
def execKill (w : Word) (s : State) : Host.Outcome State Fault Refusal :=
  s.act (fun s => s.hostReg 0x110 ((w &&& 0xFFFF_FFFD) ||| 1))

/-- KILL_COMPLETE (R72). -/
def execKillComplete (s : State) : Host.Outcome State Fault Refusal :=
  s.act (fun s => s.killComplete.powerOn)

/-- REARM (R73): a write of DEV_JOB_CTRL with REARM and without KILL. -/
def execRearm (w : Word) (s : State) : Host.Outcome State Fault Refusal :=
  s.act (fun s => s.hostReg 0x110 ((w &&& 0xFFFF_FFFE) ||| 2))

/-- REARM_COMPLETE (R73). -/
def execRearmComplete (s : State) : Host.Outcome State Fault Refusal :=
  s.act (fun s => (s.rearmDone.powerOn).kick)

/-- HOST_IRQ_CLEAR (R265): a write of HOST_IRQ_STATUS. -/
def execHostIrqClear (w : Word) (s : State) : Host.Outcome State Fault Refusal :=
  s.act (fun s => s.hostReg 0x2004 w)

/-- MEM_BW_SPLIT (R140): a write of MEM_BW_SPLIT. -/
def execMemBwSplit (w : Word) (s : State) : Host.Outcome State Fault Refusal :=
  s.act (fun s => s.hostReg 0x3400 w)

/-- MEM_PT_SEL (R143): a write of MEM_PT_SEL. -/
def execMemPtSel (w : Word) (s : State) : Host.Outcome State Fault Refusal :=
  s.act (fun s => s.hostReg 0x340C w)

/-- MEM_FILL_DONE (R150): a write of MEM_FILL_DONE. -/
def execMemFillDone (w : Word) (s : State) : Host.Outcome State Fault Refusal :=
  s.act (fun s => s.hostReg 0x342C w)

/-- SP_DEBUG_READ (R133): a write of TCn_SP_DBG_CTRL with START. -/
def execSpDebugRead (core : Nat) (w : Word) (s : State) : Host.Outcome State Fault Refusal :=
  s.act (fun s => (if core < 6 then s.hostReg (blkTc core + 0x340) (w ||| 0x8000_0000) else s))

/-- SP_DEBUG_READ_DONE (R133). -/
def execSpDebugReadDone (core : Nat) (s : State) : Host.Outcome State Fault Refusal :=
  s.act (fun s => (if h : core < 6 then s.debugDone ⟨core, h⟩ else s))

/-- SET_ARM (R218): a write of TIME_CTRL with SET_ARM. -/
def execSetArm (w : Word) (s : State) : Host.Outcome State Fault Refusal :=
  s.act (fun s => s.hostReg 0x4018 (w ||| 1))

/-- PIN_FORCE (R228): a write of TIME_PIN_FORCE_EN or TIME_PIN_FORCE_LVL. -/
def execPinForce (level : Bool) (w : Word) (s : State) : Host.Outcome State Fault Refusal :=
  s.act (fun s => s.hostReg (if level then 0x404C else 0x4048) w)

/-- TOKEN_SUBMIT (R355): a write of SEC_TOKEN_CTRL with SUBMIT. -/
def execTokenSubmit (w : Word) (s : State) : Host.Outcome State Fault Refusal :=
  s.act (fun s => s.hostReg 0x9060 (w ||| 1))

/-- TOKEN_DONE (R355). -/
def execTokenDone (s : State) : Host.Outcome State Fault Refusal :=
  s.act (fun s => s.tokenDone)

/-- ROLLBACK_COMMIT (R353): a write of SEC_ROLLBACK with COMMIT. -/
def execRollbackCommit (w : Word) (s : State) : Host.Outcome State Fault Refusal :=
  s.act (fun s => s.hostReg 0x904C (w ||| 0x8000))

/-- ATTEST_START (R357): a write of SEC_ATTEST_CTRL with START and without RELEASE. -/
def execAttestStart (w : Word) (s : State) : Host.Outcome State Fault Refusal :=
  s.act (fun s => s.hostReg 0x9070 ((w &&& 0xFFFF_FFFD) ||| 1))

/-- ATTEST_DONE (R357). -/
def execAttestDone (s : State) : Host.Outcome State Fault Refusal :=
  s.act (fun s => s.attestDone)

/-- ATTEST_RELEASE (R357): a write of SEC_ATTEST_CTRL with RELEASE and without START. -/
def execAttestRelease (w : Word) (s : State) : Host.Outcome State Fault Refusal :=
  s.act (fun s => s.hostReg 0x9070 ((w &&& 0xFFFF_FFFE) ||| 2))

/-- ATTEST_TIMEOUT (R357). -/
def execAttestTimeout (s : State) : Host.Outcome State Fault Refusal :=
  s.act (fun s => s.attestTimeout)

/-- INV_REPLAY (R317): a write of INV_REPLAY. -/
def execInvReplay (w : Word) (s : State) : Host.Outcome State Fault Refusal :=
  s.act (fun s => s.hostReg 0xA060 w)

/-- PWR_CAP_WRITE (R329): a write of PWR_CAP. -/
def execPwrCapWrite (w : Word) (s : State) : Host.Outcome State Fault Refusal :=
  s.act (fun s => s.hostReg 0x7004 w)

/-- IL_COMMIT (R251): a write of IL_CTRL. -/
def execIlCommit (s : State) : Host.Outcome State Fault Refusal :=
  s.act (fun s => s.ilWrite 1)

/-- IL_COMMIT_DONE (R251). -/
def execIlCommitDone (s : State) : Host.Outcome State Fault Refusal :=
  s.act (fun s => s.ilCommitDone)

/-- IDENTITY (R249): a write of IL_CTRL. -/
def execIdentity (s : State) : Host.Outcome State Fault Refusal :=
  s.act (fun s => s.ilWrite 4)

/-- DISCOVER_START (R252): a write of IL_CTRL. -/
def execDiscoverStart (s : State) : Host.Outcome State Fault Refusal :=
  s.act (fun s => s.ilWrite 2)

/-- DISCOVER_END (R253): a write of IL_CTRL. -/
def execDiscoverEnd (s : State) : Host.Outcome State Fault Refusal :=
  s.act (fun s => s.ilWrite 3)

/-- IL_DERIVE_DONE (R253). -/
def execIlDeriveDone (s : State) : Host.Outcome State Fault Refusal :=
  s.act (fun s => s.deriveDone)

/-- REG_WRITE (R266). -/
def execRegWrite (offset : Nat) (w : Word) (pecOk : Bool) (s : State) : Host.Outcome State Fault Refusal :=
  s.act (fun s => s.mgmtWrite offset w pecOk)

/-- REG_ADDR (R266). -/
def execRegAddr (offset : Nat) (pecOk : Bool) (s : State) : Host.Outcome State Fault Refusal :=
  s.act (fun s => s.mgmtAddr offset pecOk)

/-- REG_READ (R266). -/
def execRegRead (s : State) : Host.Outcome State Fault Refusal :=
  s.act (fun s => s.mgmtRead)

/-- MGMT_STATE (R266). -/
def execMgmtState (s : State) : Host.Outcome State Fault Refusal :=
  s.act (fun s => s.mgmtState)

/-- REGISTER_WRITE (R10): a write of one register of the register page. -/
def execRegisterWrite (offset : Nat) (w : Word) (s : State) : Host.Outcome State Fault Refusal :=
  s.act (fun s => (if offset < regEnd then s.hostReg (offset / 4 * 4) w else s))

/-- HOST_READ_BURST (R254). -/
def execHostReadBurst (addr upset : Nat) (s : State) : Host.Outcome State Fault Refusal :=
  s.act (fun s => s.hostRead addr upset)

/-- HOST_WRITE_BURST (R254). -/
def execHostWriteBurst (addr : Nat) (data : List Byte) (mask ecc : Nat) (s : State) : Host.Outcome State Fault Refusal :=
  s.act (fun s => s.hostStore addr data mask ecc)

/-- MR_WRITE (R244). -/
def execMrWrite (chan mr value : Nat) (s : State) : Host.Outcome State Fault Refusal :=
  s.act (fun s => s.mrWrite chan mr value)

/-- WRITE_X (R244): ignored and counted. -/
def execWriteX (_ : Nat) (s : State) : Host.Outcome State Fault Refusal :=
  s.act (fun s => (if s.portUp then s.count rCmdIgnored 1 else s))

/-- REFRESH (R246): completes with no internal action. -/
def execRefresh (_ : Nat) (s : State) : Host.Outcome State Fault Refusal :=
  s.act (fun s => s)

/-- SELF_REFRESH_ENTRY (R246). -/
def execSelfRefreshEntry (chan : Nat) (deep : Bool) (s : State) : Host.Outcome State Fault Refusal :=
  s.act (fun s => (if s.portUp then s.selfRefreshIn chan deep else s))

/-- SELF_REFRESH_EXIT (R246). -/
def execSelfRefreshExit (chan : Nat) (s : State) : Host.Outcome State Fault Refusal :=
  s.act (fun s => (if s.portUp then s.selfRefreshOut chan else s))

/-- HC_RESET (R247). -/
def execHcReset (s : State) : Host.Outcome State Fault Refusal :=
  s.act (fun s => s.hcReset)

/-- HC_RESET_RELEASE (R247). -/
def execHcResetRelease (s : State) : Host.Outcome State Fault Refusal :=
  s.act (fun s => s.hcRelease)

/-- DYNAMIC_ADDRESS_ASSIGNMENT (R266). -/
def execDynamicAddressAssignment (address : Nat) (s : State) : Host.Outcome State Fault Refusal :=
  s.act (fun s => s.mgmtDynamic address)

/-- JTAG_INSTRUCTION (R358). -/
def execJtagInstruction (code : Nat) (data : List Byte) (s : State) : Host.Outcome State Fault Refusal :=
  s.act (fun s => s.jtagIn code data)

end Sys2Proof.Machine
end

