-- ==== Sys2Proof/Machine/RunInvar.lean ====
section
/-! DEFINITION. Machine/RunInvar.lean: the meanings of commands and events of Invar (R305-R320). -/

namespace Sys2Proof.Machine

open Sys2Proof

/-- INV_RECORD (R315). -/
def execInvRecord (q : QueueId) (h : Header) (o : InvRecordOps) (s : State) : Host.Outcome State Fault Refusal :=
  s.act (fun s => s.present q h (.invRecord o) (invRecordWork o))

/-- INV_INDICATE (R318). -/
def execInvIndicate (q : QueueId) (h : Header) (o : InvIndicateOps) (s : State) : Host.Outcome State Fault Refusal :=
  s.act (fun s => s.present q h (.invIndicate o) (invIndicateWork o))

/-- CAL_ENABLE_CHANGE (R310). -/
def execCalEnableChange (low : Bool) (s : State) : Host.Outcome State Fault Refusal :=
  s.act (fun s => s.calChange low)

/-- INVAR_INPUT (R307). -/
def execInvarInput (channel : Nat) (s : State) : Host.Outcome State Fault Refusal :=
  s.act (fun s => (s.invarInput channel).kick)

/-- CHECKPOINT_DUE (R316). -/
def execCheckpointDue (s : State) : Host.Outcome State Fault Refusal :=
  s.act (fun s => s.checkpointDue)

/-- CHECKPOINT_SIGNED (R316). -/
def execCheckpointSigned (s : State) : Host.Outcome State Fault Refusal :=
  s.act (fun s => s.endCheckpoint)

/-- ACK (R318): a UART frame arrives. -/
def execAck (frame : List Byte) (s : State) : Host.Outcome State Fault Refusal :=
  s.act (fun s => s.uartIn frame)

/-- REQ_IDENT (R318): a UART frame arrives. -/
def execReqIdent (frame : List Byte) (s : State) : Host.Outcome State Fault Refusal :=
  s.act (fun s => s.uartIn frame)

/-- REQ_LAST (R318): a UART frame arrives. -/
def execReqLast (frame : List Byte) (s : State) : Host.Outcome State Fault Refusal :=
  s.act (fun s => s.uartIn frame)

/-- UART_RETRY (R318). -/
def execUartRetry (s : State) : Host.Outcome State Fault Refusal :=
  s.act (fun s => s.uartRetry)

end Sys2Proof.Machine
end

