-- ==== Sys2Proof/Machine/RunMemory.lean ====
section
/-! DEFINITION. Machine/RunMemory.lean: the meanings of events of memory stacks, faults, fills, retirement and tests (R114, R130, R147-R150, R273-R281, R323, R341-R348). -/

namespace Sys2Proof.Machine

open Sys2Proof

/-- A host fill that has timed out: neighbours' requests for its page are refused too, and what waited goes on (R148, R150). -/
def State.fillExpired (s : State) : State :=
  match s.faults.request, s.hostFill with
  | some _, some f => ((s.serveRefused f.key).fillTimeout).afterFill
  | _, _ => s

/-- STACK_READ_RETURN (R274). -/
def execStackReadReturn (r : StackRx) (s : State) : Host.Outcome State Fault Refusal :=
  s.act (fun s => s.stackReturn r)

/-- LINK_RETRAIN_DONE (R278). -/
def execLinkRetrainDone (stack link : Nat) (passed : Bool) (s : State) : Host.Outcome State Fault Refusal :=
  s.act (fun s => s.linkTrained stack link passed)

/-- STACK_SCRUB (R281). -/
def execStackScrub (stack bank row found : Nat) (s : State) (line : Nat := 0) : Host.Outcome State Fault Refusal :=
  s.act (fun s => s.scrubRow stack bank row found line)

/-- SP_REPAIR (R130). -/
def execSpRepair (core line : Nat) (s : State) : Host.Outcome State Fault Refusal :=
  s.act (fun s => (if h : core < 6 then s.spRepair ⟨core, h⟩ line else s))

/-- FAULT_RESOLVED (R147). -/
def execFaultResolved (page : Nat) (data : List Byte) (s : State) : Host.Outcome State Fault Refusal :=
  s.act (fun s => (s.faultResolved page data).afterFill)

/-- HOST_FILL_REQUEST (R150). -/
def execHostFillRequest (s : State) : Host.Outcome State Fault Refusal :=
  s.act (fun s => s.fillRequest)

/-- FILL_TIMEOUT (R150). -/
def execFillTimeout (s : State) : Host.Outcome State Fault Refusal :=
  s.act (fun s => s.fillExpired)

/-- RETIREMENT (R345). -/
def execRetirement (e : Element) (s : State) : Host.Outcome State Fault Refusal :=
  s.act (fun s => (s.retireElement e).powerOn)

/-- PLACEMENT_SWITCH (R47). -/
def execPlacementSwitch (s : State) : Host.Outcome State Fault Refusal :=
  s.act (fun s => (s.placementSwitch.powerOn).kick)

/-- BACKGROUND_TEST (R343). -/
def execBackgroundTest (target : TestTarget) (passed : Bool) (s : State) : Host.Outcome State Fault Refusal :=
  s.act (fun s => s.backgroundTest target passed)

/-- COLUMN_SWAP (R341). -/
def execColumnSwap (core quadrant : Nat) (s : State) : Host.Outcome State Fault Refusal :=
  s.act (fun s => s.columnSwap core quadrant)

/-- CALIBRATION (R344). -/
def execCalibration (kind : Nat) (passed : Bool) (s : State) : Host.Outcome State Fault Refusal :=
  s.act (fun s => s.calibration kind passed)

/-- DOMAIN_ON_DONE (R323). -/
def execDomainOnDone (domain : Nat) (s : State) : Host.Outcome State Fault Refusal :=
  s.act (fun s => (s.domainOpen domain).kick)

/-- BANK_GROUP_ZEROED (R114). -/
def execBankGroupZeroed (core group : Nat) (s : State) : Host.Outcome State Fault Refusal :=
  s.act (fun s => (if h : core < 6 then (s.groupOpen ⟨core, h⟩ group).kick else s))

end Sys2Proof.Machine
end

