-- ==== Sys2Proof/Machine/RunNetwork.lean ====
section
/-! DEFINITION. Machine/RunNetwork.lean: the meanings of commands and events of Solder and Ethernet ports, and credits (R17, R225, R285-R304). -/

namespace Sys2Proof.Machine

open Sys2Proof

/-- A packet that its port takes (R287). -/
def State.onPacket (s : State) (r : Rx) (f : State → State) : State :=
  let x := s.receive r
  if x.1 then f x.2 else x.2

/-- SLD_COLL (R298). -/
def execSldColl (q : QueueId) (h : Header) (o : CollOps) (s : State) : Host.Outcome State Fault Refusal :=
  s.act (fun s => (s.present q h (.sldColl o) (sldCollWork o)).kick)

/-- ETH_FLOW (R302). -/
def execEthFlow (q : QueueId) (h : Header) (o : EthFlowOps) (s : State) : Host.Outcome State Fault Refusal :=
  s.act (fun s => (s.present q h (.ethFlow o) (ethFlowWork o)).kick)

/-- ETH_SEND (R303). -/
def execEthSend (q : QueueId) (h : Header) (o : EthSendOps) (s : State) : Host.Outcome State Fault Refusal :=
  s.act (fun s => (s.present q h (.ethSend o) (ethSendWork h o)).kick)

/-- ETH_GCL (R225). -/
def execEthGcl (q : QueueId) (h : Header) (o : EthGclOps) (s : State) : Host.Outcome State Fault Refusal :=
  s.act (fun s => (s.present q h (.ethGcl o) (ethGclWork o)).kick)

/-- GCL_CYCLE_START (R225). -/
def execGclCycleStart (port : Nat) (s : State) : Host.Outcome State Fault Refusal :=
  s.act (fun s => (s.gclStart port).kick)

/-- CREDIT_ARRIVAL (R17). -/
def execCreditArrival (channel receiver count : Nat) (s : State) : Host.Outcome State Fault Refusal :=
  s.act (fun s => (s.creditArrival channel receiver count).kick)

/-- DATA (R293). -/
def execData (r : Rx) (s : State) : Host.Outcome State Fault Refusal :=
  s.act (fun s => (s.onPacket r (fun s => s.dataPacket r)).kick)

/-- CREDIT (R293). -/
def execCredit (r : Rx) (s : State) : Host.Outcome State Fault Refusal :=
  s.act (fun s => (s.onPacket r (fun s => s.creditPacket r)).kick)

/-- MCAST_CREDIT (R295). -/
def execMcastCredit (r : Rx) (s : State) : Host.Outcome State Fault Refusal :=
  s.act (fun s => (s.onPacket r (fun s => s.mcastCredit r)).kick)

/-- SOLDER_BARRIER (R296). -/
def execSolderBarrier (r : Rx) (s : State) : Host.Outcome State Fault Refusal :=
  s.act (fun s => (s.onPacket r (fun s => (s.barrierPacket r).afterPhase)).kick)

/-- COLL (R298). -/
def execColl (r : Rx) (s : State) : Host.Outcome State Fault Refusal :=
  s.act (fun s => (s.onPacket r (fun s => s.collIn r)).kick)

/-- MEM_REQ (R142). -/
def execMemReq (r : Rx) (s : State) : Host.Outcome State Fault Refusal :=
  s.act (fun s => (s.onPacket r (fun s => s.memReq r)).kick)

/-- MEM_RESP (R142). -/
def execMemResp (r : Rx) (s : State) : Host.Outcome State Fault Refusal :=
  s.act (fun s => (s.onPacket r (fun s => s.memResp r)).kick)

/-- MCAST_DATA (R294). -/
def execMcastData (r : Rx) (policy : Option Nat) (s : State) : Host.Outcome State Fault Refusal :=
  s.act (fun s => (s.onPacket r (fun s => s.mcastData r policy)).kick)

/-- LINK_CTRL (R287). -/
def execLinkCtrl (port : Nat) (nack : Bool) (seq : Nat) (shape : Option Shape) (s : State) : Host.Outcome State Fault Refusal :=
  s.act (fun s => (s.linkCtrl port nack seq shape).kick)

/-- PORT_RETRAIN_DONE (R287). -/
def execPortRetrainDone (port : Nat) (asym : Int) (s : State) : Host.Outcome State Fault Refusal :=
  s.act (fun s => (s.retrainDone port asym).kick)

/-- LANE_DEGRADE (R288). -/
def execLaneDegrade (port lane : Nat) (s : State) : Host.Outcome State Fault Refusal :=
  s.act (fun s => s.laneDegrade port lane)

/-- LANE_RETRAIN_DONE (R288). -/
def execLaneRetrainDone (port lane : Nat) (passed : Bool) (s : State) (asym : Int := 0) : Host.Outcome State Fault Refusal :=
  s.act (fun s => (s.laneDone port lane passed asym).recheck)

/-- FLOW_FRAME_RX (R304). -/
def execFlowFrameRx (port etherType : Nat) (data : List Byte) (s : State) : Host.Outcome State Fault Refusal :=
  s.act (fun s => (s.flowFrame port etherType data).kick)

/-- GATE_INTERVAL (R225). -/
def execGateInterval (port : Nat) (s : State) : Host.Outcome State Fault Refusal :=
  s.act (fun s => (s.gateInterval port).kick)

end Sys2Proof.Machine
end

