-- ==== Sys2Proof/Machine/RunOutput.lean ====
section
/-! DEFINITION. Machine/RunOutput.lean: the meanings of publication, pin and sensor-control commands, and the events of pins (R189-R191, R227-R241, R259). -/

namespace Sys2Proof.Machine

open Sys2Proof

/-- PUB (R259). -/
def execPub (q : QueueId) (h : Header) (o : PubOps) (s : State) : Host.Outcome State Fault Refusal :=
  s.act (fun s => s.present q h (.pub o) (pubWork o))

/-- PUB_OPEN (R259). -/
def execPubOpen (q : QueueId) (h : Header) (o : PubOps) (s : State) : Host.Outcome State Fault Refusal :=
  s.act (fun s => s.present q h (.pubOpen o) (pubOpenWork o))

/-- PIN_SET (R236). -/
def execPinSet (q : QueueId) (h : Header) (o : PinSetOps) (s : State) : Host.Outcome State Fault Refusal :=
  s.act (fun s => s.present q h (.pinSet o) (pinSetWork o))

/-- PIN_PULSE (R236). -/
def execPinPulse (q : QueueId) (h : Header) (o : PinPulseOps) (s : State) : Host.Outcome State Fault Refusal :=
  s.act (fun s => s.present q h (.pinPulse o) (pinPulseWork o))

/-- PG_START (R239). -/
def execPgStart (q : QueueId) (h : Header) (o : PgStartOps) (s : State) : Host.Outcome State Fault Refusal :=
  s.act (fun s => s.present q h (.pgStart o) (pgStartWork o))

/-- PG_STOP (R238). -/
def execPgStop (q : QueueId) (h : Header) (o : PgStopOps) (s : State) : Host.Outcome State Fault Refusal :=
  s.act (fun s => s.present q h (.pgStop o) (pgStopWork o))

/-- CAP_ARM (R234). -/
def execCapArm (q : QueueId) (h : Header) (o : CapArmOps) (s : State) : Host.Outcome State Fault Refusal :=
  s.act (fun s => (s.present q h (.capArm o) (capArmWork o)).kick)

/-- CAP_DISARM (R234). -/
def execCapDisarm (q : QueueId) (h : Header) (o : CapDisarmOps) (s : State) : Host.Outcome State Fault Refusal :=
  s.act (fun s => (s.present q h (.capDisarm o) (capDisarmWork o)).kick)

/-- SCTL_WRITE (R190). -/
def execSctlWrite (q : QueueId) (h : Header) (o : SctlOps) (s : State) : Host.Outcome State Fault Refusal :=
  s.act (fun s => s.present q h (.sctlWrite o) (sctlWriteWork o))

/-- SCTL_READ (R190). -/
def execSctlRead (q : QueueId) (h : Header) (o : SctlOps) (s : State) : Host.Outcome State Fault Refusal :=
  s.act (fun s => (s.present q h (.sctlRead o) (sctlReadWork o)).kick)

/-- SCTL_CCC (R189). -/
def execSctlCcc (q : QueueId) (h : Header) (o : CccOps) (s : State) : Host.Outcome State Fault Refusal :=
  s.act (fun s => s.present q h (.sctlCcc o) (sctlCccWork o))

/-- EVENT_PIN_EDGE (R229). -/
def execEventPinEdge (pin instant : Nat) (rising : Bool) (s : State) : Host.Outcome State Fault Refusal :=
  s.act (fun s => (s.pinEdge pin instant rising).kick)

/-- WINDOW_CLOSE (R235). -/
def execWindowClose (pin : Nat) (s : State) : Host.Outcome State Fault Refusal :=
  s.act (fun s => (s.windowClose pin).kick)

/-- REC_FLUSH (R231). -/
def execRecFlush (port : Nat) (s : State) : Host.Outcome State Fault Refusal :=
  s.act (fun s => (s.recFlush port).kick)

/-- PG_EDGE (R239). -/
def execPgEdge (pg : Nat) (s : State) : Host.Outcome State Fault Refusal :=
  s.act (fun s => s.pgEdge pg)

/-- MCLK_SWITCH (R191). -/
def execMclkSwitch (n : Nat) (s : State) : Host.Outcome State Fault Refusal :=
  s.act (fun s => s.mclkSwitch n)

/-- PIN_CALIBRATION (R241). -/
def execPinCalibration (pin : Nat) (passed : Bool) (s : State) : Host.Outcome State Fault Refusal :=
  s.act (fun s => s.pinCal pin passed)

/-- IBI (R189). -/
def execIbi (port address payload : Nat) (s : State) : Host.Outcome State Fault Refusal :=
  s.act (fun s => s.inBand port address payload)

/-- PULSE_END (R236). -/
def execPulseEnd (pin : Nat) (s : State) : Host.Outcome State Fault Refusal :=
  s.act (fun s => s.pulseEnd pin)

end Sys2Proof.Machine
end

