-- ==== Sys2Proof/Machine/RunPicture.lean ====
section
/-! DEFINITION. Machine/RunPicture.lean: the meanings of picture pipeline commands, and the events of cameras (R174-R206). -/

namespace Sys2Proof.Machine

open Sys2Proof

/-- PP_PARAM (R180). -/
def execPpParam (q : QueueId) (h : Header) (o : ParamOps) (s : State) : Host.Outcome State Fault Refusal :=
  s.act (fun s => (s.present q h (.ppParam o) (ppParamWork o)).kick)

/-- PP_BAND (R198). -/
def execPpBand (q : QueueId) (h : Header) (o : BandOps) (s : State) : Host.Outcome State Fault Refusal :=
  s.act (fun s => s.present q h (.ppBand o) (ppBandWork o))

/-- PP_BPARAM (R205). -/
def execPpBParam (q : QueueId) (h : Header) (o : ParamOps) (s : State) : Host.Outcome State Fault Refusal :=
  s.act (fun s => (s.present q h (.ppBParam o) (ppBParamWork o)).kick)

/-- PP_BROWS (R206). -/
def execPpBRows (q : QueueId) (h : Header) (o : BRowsOps) (s : State) : Host.Outcome State Fault Refusal :=
  s.act (fun s => (s.present q h (.ppBRows o) (ppBRowsWork o)).kick)

/-- FRAME_START_PACKET (R175). -/
def execFrameStartPacket (p : CamPkt) (s : State) : Host.Outcome State Fault Refusal :=
  s.act (fun s => (s.frameStart p.cam p.vc p.number p.header p.tick).kick)

/-- LONG_PACKET (R177). -/
def execLongPacket (p : CamPkt) (s : State) : Host.Outcome State Fault Refusal :=
  s.act (fun s => (s.longPacket p.cam p.vc p.dt p.header p.crcOk p.data p.tick).kick)

/-- FRAME_END_PACKET (R178). -/
def execFrameEndPacket (p : CamPkt) (s : State) : Host.Outcome State Fault Refusal :=
  s.act (fun s => (s.frameEnd p.cam p.vc p.header p.tick).kick)

/-- FRAME_TIMEOUT (R178). -/
def execFrameTimeout (cam exposure : Nat) (s : State) : Host.Outcome State Fault Refusal :=
  s.act (fun s => (s.frameTimeout cam exposure).kick)

/-- MEMORY_FED_FRAME (R193). -/
def execMemoryFedFrame (pipe : Nat) (s : State) : Host.Outcome State Fault Refusal :=
  s.act (fun s => (s.fedFrame pipe).kick)

end Sys2Proof.Machine
end

