-- ==== Sys2Proof/Machine/RunPower.lean ====
section
/-! DEFINITION. Machine/RunPower.lean: the meanings of events of the power controller, resets and the boot chain (R325-R338, R349-R372). -/

namespace Sys2Proof.Machine

open Sys2Proof

/-- RESET_ASSERT (R368). -/
def execResetAssert (s : State) : Host.Outcome State Fault Refusal :=
  .next (s.resetLow)

/-- RESET_RELEASE (R53). -/
def execResetRelease (straps mgmtAddr : Nat) (pwrOk answers8D : Bool) (s : State) : Host.Outcome State Fault Refusal :=
  .next (s.released straps mgmtAddr pwrOk answers8D)

/-- PWR_OK_FALL (R368). -/
def execPwrOkFall (s : State) : Host.Outcome State Fault Refusal :=
  .next (s.powerLost)

/-- FIRMWARE_UP (R372). -/
def execFirmwareUp (ports : List (Nat × Int)) (s : State) : Host.Outcome State Fault Refusal :=
  s.act (fun s => s.firmwareUp ports)

/-- MC_RESTART_END (R268). -/
def execMcRestartEnd (s : State) : Host.Outcome State Fault Refusal :=
  s.act (fun s => s.mcRestartEnd.kick)

/-- BRAKE_ASSERT (R331). -/
def execBrakeAssert (s : State) : Host.Outcome State Fault Refusal :=
  s.act (fun s => s.brakeAssert)

/-- BRAKE_RELEASE (R331). -/
def execBrakeRelease (s : State) : Host.Outcome State Fault Refusal :=
  s.act (fun s => s.brakeRelease)

/-- POWER_SAMPLE (R328). -/
def execPowerSample (p : Sample) (s : State) : Host.Outcome State Fault Refusal :=
  s.act (fun s => s.powerSample p)

/-- THERMAL_STEP (R326). -/
def execThermalStep (temps : List (Nat × Int)) (s : State) : Host.Outcome State Fault Refusal :=
  s.act (fun s => s.thermalStep temps)

/-- OP_STEP_SETTLED (R327). -/
def execOpStepSettled (s : State) : Host.Outcome State Fault Refusal :=
  s.act (fun s => s.stepSettled)

/-- MATCH_UPDATE (R338). -/
def execMatchUpdate (rates : List (Nat × Nat)) (s : State) : Host.Outcome State Fault Refusal :=
  s.act (fun s => s.matchUpdate rates)

/-- DROOP_FIRE (R333). -/
def execDroopFire (unit : Nat) (s : State) : Host.Outcome State Fault Refusal :=
  s.act (fun s => s.droopFire unit)

/-- DROOP_CLEAR (R335). -/
def execDroopClear (s : State) : Host.Outcome State Fault Refusal :=
  s.act (fun s => s.droopClear)

/-- THERMAL_TRIP (R337). -/
def execThermalTrip (sensor : Nat) (temp : Int) (s : State) : Host.Outcome State Fault Refusal :=
  s.act (fun s => s.thermalTrip sensor temp)

/-- TRIP_COOLING (R337). -/
def execTripCooling (s : State) : Host.Outcome State Fault Refusal :=
  s.act (fun s => s.tripCooling)

/-- TRIP_RESTART (R337). -/
def execTripRestart (s : State) : Host.Outcome State Fault Refusal :=
  s.act (fun s => s.tripRestart)

/-- MANAGEMENT_CONTROLLER_RESTART (R268). -/
def execManagementControllerRestart (s : State) : Host.Outcome State Fault Refusal :=
  s.act (fun s => s.mcRestart)

end Sys2Proof.Machine
end

