-- ==== Sys2Proof/Machine/RunQueue.lean ====
section
/-! DEFINITION. Machine/RunQueue.lean: the meanings of control commands of every queue, their completion and their launch ticks (R61-R69, R71, R380). -/

namespace Sys2Proof.Machine

open Sys2Proof

/-- NOP (R63). -/
def execNop (q : QueueId) (h : Header) (s : State) : Host.Outcome State Fault Refusal :=
  s.act (fun s => s.present q h .nop nopWork)

/-- LAUNCH_AT (R67). -/
def execLaunchAt (q : QueueId) (h : Header) (o : LaunchAtOps) (s : State) : Host.Outcome State Fault Refusal :=
  s.act (fun s => s.present q h (.launchAt o) (launchAtWork o))

/-- JUMP (R65). -/
def execJump (q : QueueId) (h : Header) (o : JumpOps) (s : State) : Host.Outcome State Fault Refusal :=
  s.act (fun s => s.present q h (.jump o) (jumpWork o))

/-- BARRIER (R69). -/
def execBarrier (q : QueueId) (h : Header) (o : BarrierOps) (s : State) : Host.Outcome State Fault Refusal :=
  s.act (fun s => (s.present q h (.barrier o) (barrierWork o)).afterPhase)

/-- COMPLETE (R71). -/
def execComplete (q : QueueId) (h : Header) (o : CompleteOps) (s : State) : Host.Outcome State Fault Refusal :=
  s.act (fun s => s.present q h (.complete o) completeWork)

/-- TIME_READ (R380). -/
def execTimeRead (q : QueueId) (h : Header) (o : TimeReadOps) (s : State) : Host.Outcome State Fault Refusal :=
  s.act (fun s => s.present q h (.timeRead o) (timeReadWork o))

/-- COMMAND_COMPLETION (R64): the oldest command of a queue whose work is finished completes. -/
def execCommandCompletion (q : QueueId) (s : State) : Host.Outcome State Fault Refusal :=
  s.act (fun s => (s.completion q).kick)

/-- LAUNCH_TICK (R68). -/
def execLaunchTick (timer : Nat) (s : State) : Host.Outcome State Fault Refusal :=
  s.act (fun s => if s.tickHeld timer then s else (s.launchTick timer runBody).afterPhase.kick)

end Sys2Proof.Machine
end

