-- ==== Sys2Proof/Machine/RunTime.lean ====
section
/-! DEFINITION. Machine/RunTime.lean: the meanings of events of the time unit (R214-R224). -/

namespace Sys2Proof.Machine

open Sys2Proof

/-- A time message that its port takes (R287); a change of holdover is noted in Invar's chain (R315). -/
def State.onTimeMsg (s : State) (m : TimeRx) (f : State → List Byte → State) : State :=
  let r := s.receive m.rx
  if r.1 then State.timeNote s (f r.2 m.rx.pkt.payload) else r.2

/-- PPS_IN_EDGE (R218). -/
def execPpsInEdge (tick : Nat) (s : State) : Host.Outcome State Fault Refusal :=
  s.act (fun s => (State.timeNote s (s.ppsEdge tick runBody)).kick)

/-- PPS_OUT_SECOND (R240). -/
def execPpsOutSecond (s : State) : Host.Outcome State Fault Refusal :=
  s.act (fun s => s.ppsOutSecond)

/-- SYNC_PERIOD (R221). -/
def execSyncPeriod (s : State) : Host.Outcome State Fault Refusal :=
  s.act (fun s => s.syncPeriod)

/-- SYNC (R221). -/
def execSync (m : TimeRx) (s : State) : Host.Outcome State Fault Refusal :=
  s.act (fun s => s.onTimeMsg m (fun s p => s.takeSync m p))

/-- DELAY_REQ (R221). -/
def execDelayReq (m : TimeRx) (s : State) : Host.Outcome State Fault Refusal :=
  s.act (fun s => s.onTimeMsg m (fun s p => s.takeDelayReq m p))

/-- DELAY_RESP (R221). -/
def execDelayResp (m : TimeRx) (s : State) : Host.Outcome State Fault Refusal :=
  s.act (fun s => (s.onTimeMsg m (fun s p => s.takeDelayResp m p runBody)).kick)

/-- SOURCE_LOST (R219). -/
def execSourceLost (s : State) (what : TimeLoss := .reference) : Host.Outcome State Fault Refusal :=
  s.act (fun s => State.timeNote s (s.sourceLost what))

/-- PTP_MESSAGE (R224). -/
def execPtpMessage (port state : Nat) (asCapable : Bool) (offset : Option Int) (s : State) (domain : Nat := 0) : Host.Outcome State Fault Refusal :=
  s.act (fun s => (State.timeNote s (s.ptpMessage port domain state asCapable offset runBody)).kick)

/-- ANNOUNCE_INTERVAL (R224). -/
def execAnnounceInterval (s : State) : Host.Outcome State Fault Refusal :=
  s.act (fun s => s.announce)

/-- REF_10M_IN_RETURN (R219). -/
def execRef10mInReturn (s : State) : Host.Outcome State Fault Refusal :=
  s.act (fun s => State.timeNote s s.refReturn)

end Sys2Proof.Machine
end

