-- ==== Sys2Proof/Machine/RunTransfer.lean ====
section
/-! DEFINITION. Machine/RunTransfer.lean: the meanings of transfer engine and scratchpad commands (R124-R128, R135, R151). -/

namespace Sys2Proof.Machine

open Sys2Proof

/-- XFER (R136). -/
def execXfer (q : QueueId) (h : Header) (o : XferOps) (s : State) : Host.Outcome State Fault Refusal :=
  s.act (fun s => (s.present q h (.xfer o) (xferWork h o)).kick)

/-- PGPOLICY (R151). -/
def execPgPolicy (q : QueueId) (h : Header) (o : PageOps) (s : State) : Host.Outcome State Fault Refusal :=
  s.act (fun s => s.present q h (.pgPolicy o) (pgPolicyWork o))

/-- PGTOUCH (R151). -/
def execPgTouch (q : QueueId) (h : Header) (o : PageOps) (s : State) : Host.Outcome State Fault Refusal :=
  s.act (fun s => (s.present q h (.pgTouch o) (pgTouchWork o)).kick)

/-- SPFILL (R124). -/
def execSpFill (q : QueueId) (h : Header) (o : SpFillOps) (s : State) : Host.Outcome State Fault Refusal :=
  s.act (fun s => s.present q h (.spFill o) (spFillWork o))

/-- SPCOPY (R125). -/
def execSpCopy (q : QueueId) (h : Header) (o : SpCopyOps) (s : State) : Host.Outcome State Fault Refusal :=
  s.act (fun s => s.present q h (.spCopy o) (spCopyWork o))

/-- NWRITE (R127). -/
def execNWrite (q : QueueId) (h : Header) (o : NWriteOps) (s : State) : Host.Outcome State Fault Refusal :=
  s.act (fun s => (s.present q h (.nWrite o) (nWriteWork o)).kick)

/-- SPCREDIT (R128). -/
def execSpCredit (q : QueueId) (h : Header) (o : SpCreditOps) (s : State) : Host.Outcome State Fault Refusal :=
  s.act (fun s => (s.present q h (.spCredit o) (spCreditWork o)).kick)

end Sys2Proof.Machine
end

