-- ==== Sys2Proof/Machine/RunVector.lean ====
section
/-! DEFINITION. Machine/RunVector.lean: the meanings of vector commands (R91-R94, R104-R109, R169-R171). -/

namespace Sys2Proof.Machine

open Sys2Proof

/-- VADD (R91). -/
def execVadd (q : QueueId) (h : Header) (o : VecOps) (s : State) : Host.Outcome State Fault Refusal :=
  s.act (fun s => s.present q h (.vadd o) (vaddWork o))

/-- VSUB (R91). -/
def execVsub (q : QueueId) (h : Header) (o : VecOps) (s : State) : Host.Outcome State Fault Refusal :=
  s.act (fun s => s.present q h (.vsub o) (vsubWork o))

/-- VMUL (R91). -/
def execVmul (q : QueueId) (h : Header) (o : VecOps) (s : State) : Host.Outcome State Fault Refusal :=
  s.act (fun s => s.present q h (.vmul o) (vmulWork o))

/-- VFMA (R91). -/
def execVfma (q : QueueId) (h : Header) (o : VecOps) (s : State) : Host.Outcome State Fault Refusal :=
  s.act (fun s => s.present q h (.vfma o) (vfmaWork o))

/-- VMAX (R91). -/
def execVmax (q : QueueId) (h : Header) (o : VecOps) (s : State) : Host.Outcome State Fault Refusal :=
  s.act (fun s => s.present q h (.vmax o) (vmaxWork o))

/-- VMIN (R91). -/
def execVmin (q : QueueId) (h : Header) (o : VecOps) (s : State) : Host.Outcome State Fault Refusal :=
  s.act (fun s => s.present q h (.vmin o) (vminWork o))

/-- VUNARY (R91). -/
def execVunary (q : QueueId) (h : Header) (o : VecOps) (s : State) : Host.Outcome State Fault Refusal :=
  s.act (fun s => s.present q h (.vunary o) (vunaryWork o))

/-- VCMP (R91). -/
def execVcmp (q : QueueId) (h : Header) (o : VecOps) (s : State) : Host.Outcome State Fault Refusal :=
  s.act (fun s => s.present q h (.vcmp o) (vcmpWork o))

/-- VSEL (R91). -/
def execVsel (q : QueueId) (h : Header) (o : VecOps) (s : State) : Host.Outcome State Fault Refusal :=
  s.act (fun s => s.present q h (.vsel o) (vselWork o))

/-- VEXP2 (R92). -/
def execVexp2 (q : QueueId) (h : Header) (o : VecOps) (s : State) : Host.Outcome State Fault Refusal :=
  s.act (fun s => s.present q h (.vexp2 o) (vexp2Work o))

/-- VLOG2 (R92). -/
def execVlog2 (q : QueueId) (h : Header) (o : VecOps) (s : State) : Host.Outcome State Fault Refusal :=
  s.act (fun s => s.present q h (.vlog2 o) (vlog2Work o))

/-- VRECIP (R92). -/
def execVrecip (q : QueueId) (h : Header) (o : VecOps) (s : State) : Host.Outcome State Fault Refusal :=
  s.act (fun s => s.present q h (.vrecip o) (vrecipWork o))

/-- VRSQRT (R92). -/
def execVrsqrt (q : QueueId) (h : Header) (o : VecOps) (s : State) : Host.Outcome State Fault Refusal :=
  s.act (fun s => s.present q h (.vrsqrt o) (vrsqrtWork o))

/-- VACT (R92). -/
def execVact (q : QueueId) (h : Header) (o : VecOps) (s : State) : Host.Outcome State Fault Refusal :=
  s.act (fun s => s.present q h (.vact o) (vactWork o))

/-- VREDUCE (R93). -/
def execVreduce (q : QueueId) (h : Header) (o : VecOps) (s : State) : Host.Outcome State Fault Refusal :=
  s.act (fun s => s.present q h (.vreduce o) (vreduceWork o))

/-- VEPILOGUE (R107). -/
def execVepilogue (q : QueueId) (h : Header) (o : VecOps) (s : State) : Host.Outcome State Fault Refusal :=
  s.act (fun s => s.present q h (.vepilogue o) (vepilogueWork o))

/-- VQS2 (R104). -/
def execVqs2 (q : QueueId) (h : Header) (o : VecOps) (s : State) : Host.Outcome State Fault Refusal :=
  s.act (fun s => s.present q h (.vqs2 o) (vqs2Work o))

/-- VQUANT (R106). -/
def execVquant (q : QueueId) (h : Header) (o : VecOps) (s : State) : Host.Outcome State Fault Refusal :=
  s.act (fun s => s.present q h (.vquant o) (vquantWork o))

/-- VDEQUANT (R108). -/
def execVdequant (q : QueueId) (h : Header) (o : VecOps) (s : State) : Host.Outcome State Fault Refusal :=
  s.act (fun s => s.present q h (.vdequant o) (vdequantWork o))

/-- VRESCALE (R109). -/
def execVrescale (q : QueueId) (h : Header) (o : VecOps) (s : State) : Host.Outcome State Fault Refusal :=
  s.act (fun s => s.present q h (.vrescale o) (vrescaleWork o))

/-- VPOOL (R169). -/
def execVpool (q : QueueId) (h : Header) (o : VecOps) (s : State) : Host.Outcome State Fault Refusal :=
  s.act (fun s => s.present q h (.vpool o) (vpoolWork o))

/-- VARGMAX (R171). -/
def execVargmax (q : QueueId) (h : Header) (o : VecOps) (s : State) : Host.Outcome State Fault Refusal :=
  s.act (fun s => s.present q h (.vargmax o) (vargmaxWork o))

/-- VPOOL_BWD (R170). -/
def execVpoolBwd (q : QueueId) (h : Header) (o : VecOps) (s : State) : Host.Outcome State Fault Refusal :=
  s.act (fun s => s.present q h (.vpoolBwd o) (vpoolBwdWork o))

end Sys2Proof.Machine
end

