-- ==== Sys2Proof/Machine/Dispatch.lean ====
section
/-! DEFINITION. Machine/Dispatch.lean: one arm per command of the block. -/

namespace Sys2Proof.Machine

open Sys2Proof

def exec (i : Instr) (s : State) : Host.Outcome State Fault Refusal :=
  match i with
  | .nop q h => Sys2Proof.Machine.execNop q h s
  | .launchAt q h o => Sys2Proof.Machine.execLaunchAt q h o s
  | .jump q h o => Sys2Proof.Machine.execJump q h o s
  | .barrier q h o => Sys2Proof.Machine.execBarrier q h o s
  | .complete q h o => Sys2Proof.Machine.execComplete q h o s
  | .timeRead q h o => Sys2Proof.Machine.execTimeRead q h o s
  | .commandCompletion q => Sys2Proof.Machine.execCommandCompletion q s
  | .launchTick timer => Sys2Proof.Machine.execLaunchTick timer s
  | .xfer q h o => Sys2Proof.Machine.execXfer q h o s
  | .pgPolicy q h o => Sys2Proof.Machine.execPgPolicy q h o s
  | .pgTouch q h o => Sys2Proof.Machine.execPgTouch q h o s
  | .spFill q h o => Sys2Proof.Machine.execSpFill q h o s
  | .spCopy q h o => Sys2Proof.Machine.execSpCopy q h o s
  | .nWrite q h o => Sys2Proof.Machine.execNWrite q h o s
  | .spCredit q h o => Sys2Proof.Machine.execSpCredit q h o s
  | .matmul q h o => Sys2Proof.Machine.execMatmul q h o s
  | .matmulS2 q h o => Sys2Proof.Machine.execMatmulS2 q h o s
  | .vadd q h o => Sys2Proof.Machine.execVadd q h o s
  | .vsub q h o => Sys2Proof.Machine.execVsub q h o s
  | .vmul q h o => Sys2Proof.Machine.execVmul q h o s
  | .vfma q h o => Sys2Proof.Machine.execVfma q h o s
  | .vmax q h o => Sys2Proof.Machine.execVmax q h o s
  | .vmin q h o => Sys2Proof.Machine.execVmin q h o s
  | .vunary q h o => Sys2Proof.Machine.execVunary q h o s
  | .vcmp q h o => Sys2Proof.Machine.execVcmp q h o s
  | .vsel q h o => Sys2Proof.Machine.execVsel q h o s
  | .vexp2 q h o => Sys2Proof.Machine.execVexp2 q h o s
  | .vlog2 q h o => Sys2Proof.Machine.execVlog2 q h o s
  | .vrecip q h o => Sys2Proof.Machine.execVrecip q h o s
  | .vrsqrt q h o => Sys2Proof.Machine.execVrsqrt q h o s
  | .vact q h o => Sys2Proof.Machine.execVact q h o s
  | .vreduce q h o => Sys2Proof.Machine.execVreduce q h o s
  | .vepilogue q h o => Sys2Proof.Machine.execVepilogue q h o s
  | .vqs2 q h o => Sys2Proof.Machine.execVqs2 q h o s
  | .vquant q h o => Sys2Proof.Machine.execVquant q h o s
  | .vdequant q h o => Sys2Proof.Machine.execVdequant q h o s
  | .vrescale q h o => Sys2Proof.Machine.execVrescale q h o s
  | .vpool q h o => Sys2Proof.Machine.execVpool q h o s
  | .vargmax q h o => Sys2Proof.Machine.execVargmax q h o s
  | .vpoolBwd q h o => Sys2Proof.Machine.execVpoolBwd q h o s
  | .wconv q h o => Sys2Proof.Machine.execWconv q h o s
  | .wconvDiag q h o => Sys2Proof.Machine.execWconvDiag q h o s
  | .ewin q h o => Sys2Proof.Machine.execEwin q h o s
  | .ppParam q h o => Sys2Proof.Machine.execPpParam q h o s
  | .ppBand q h o => Sys2Proof.Machine.execPpBand q h o s
  | .ppBParam q h o => Sys2Proof.Machine.execPpBParam q h o s
  | .ppBRows q h o => Sys2Proof.Machine.execPpBRows q h o s
  | .pub q h o => Sys2Proof.Machine.execPub q h o s
  | .pubOpen q h o => Sys2Proof.Machine.execPubOpen q h o s
  | .pinSet q h o => Sys2Proof.Machine.execPinSet q h o s
  | .pinPulse q h o => Sys2Proof.Machine.execPinPulse q h o s
  | .pgStart q h o => Sys2Proof.Machine.execPgStart q h o s
  | .pgStop q h o => Sys2Proof.Machine.execPgStop q h o s
  | .capArm q h o => Sys2Proof.Machine.execCapArm q h o s
  | .capDisarm q h o => Sys2Proof.Machine.execCapDisarm q h o s
  | .sctlWrite q h o => Sys2Proof.Machine.execSctlWrite q h o s
  | .sctlRead q h o => Sys2Proof.Machine.execSctlRead q h o s
  | .sctlCcc q h o => Sys2Proof.Machine.execSctlCcc q h o s
  | .sldColl q h o => Sys2Proof.Machine.execSldColl q h o s
  | .ethFlow q h o => Sys2Proof.Machine.execEthFlow q h o s
  | .ethSend q h o => Sys2Proof.Machine.execEthSend q h o s
  | .ethGcl q h o => Sys2Proof.Machine.execEthGcl q h o s
  | .gclCycleStart port => Sys2Proof.Machine.execGclCycleStart port s
  | .invRecord q h o => Sys2Proof.Machine.execInvRecord q h o s
  | .invIndicate q h o => Sys2Proof.Machine.execInvIndicate q h o s
  | .chnSel w => Sys2Proof.Machine.execChnSel w s
  | .chnSnapCopy => Sys2Proof.Machine.execChnSnapCopy s
  | .loadStart w => Sys2Proof.Machine.execLoadStart w s
  | .loadChunk w => Sys2Proof.Machine.execLoadChunk w s
  | .loadAbort w => Sys2Proof.Machine.execLoadAbort w s
  | .drainComplete => Sys2Proof.Machine.execDrainComplete s
  | .drainTimeout => Sys2Proof.Machine.execDrainTimeout s
  | .loadFinish => Sys2Proof.Machine.execLoadFinish s
  | .dbRing w => Sys2Proof.Machine.execDbRing w s
  | .kill w => Sys2Proof.Machine.execKill w s
  | .killComplete => Sys2Proof.Machine.execKillComplete s
  | .rearm w => Sys2Proof.Machine.execRearm w s
  | .rearmComplete => Sys2Proof.Machine.execRearmComplete s
  | .hostIrqClear w => Sys2Proof.Machine.execHostIrqClear w s
  | .memBwSplit w => Sys2Proof.Machine.execMemBwSplit w s
  | .memPtSel w => Sys2Proof.Machine.execMemPtSel w s
  | .memFillDone w => Sys2Proof.Machine.execMemFillDone w s
  | .spDebugRead core w => Sys2Proof.Machine.execSpDebugRead core w s
  | .spDebugReadDone core => Sys2Proof.Machine.execSpDebugReadDone core s
  | .setArm w => Sys2Proof.Machine.execSetArm w s
  | .pinForce level w => Sys2Proof.Machine.execPinForce level w s
  | .tokenSubmit w => Sys2Proof.Machine.execTokenSubmit w s
  | .tokenDone => Sys2Proof.Machine.execTokenDone s
  | .rollbackCommit w => Sys2Proof.Machine.execRollbackCommit w s
  | .attestStart w => Sys2Proof.Machine.execAttestStart w s
  | .attestDone => Sys2Proof.Machine.execAttestDone s
  | .attestRelease w => Sys2Proof.Machine.execAttestRelease w s
  | .attestTimeout => Sys2Proof.Machine.execAttestTimeout s
  | .invReplay w => Sys2Proof.Machine.execInvReplay w s
  | .pwrCapWrite w => Sys2Proof.Machine.execPwrCapWrite w s
  | .ilCommit => Sys2Proof.Machine.execIlCommit s
  | .ilCommitDone => Sys2Proof.Machine.execIlCommitDone s
  | .identity => Sys2Proof.Machine.execIdentity s
  | .discoverStart => Sys2Proof.Machine.execDiscoverStart s
  | .discoverEnd => Sys2Proof.Machine.execDiscoverEnd s
  | .ilDeriveDone => Sys2Proof.Machine.execIlDeriveDone s
  | .regWrite offset w pecOk => Sys2Proof.Machine.execRegWrite offset w pecOk s
  | .regAddr offset pecOk => Sys2Proof.Machine.execRegAddr offset pecOk s
  | .regRead => Sys2Proof.Machine.execRegRead s
  | .mgmtState => Sys2Proof.Machine.execMgmtState s
  | .registerWrite offset w => Sys2Proof.Machine.execRegisterWrite offset w s
  | .hostReadBurst addr upset => Sys2Proof.Machine.execHostReadBurst addr upset s
  | .hostWriteBurst addr data mask ecc => Sys2Proof.Machine.execHostWriteBurst addr data mask ecc s
  | .mrWrite chan mr value => Sys2Proof.Machine.execMrWrite chan mr value s
  | .writeX chan => Sys2Proof.Machine.execWriteX chan s
  | .refresh chan => Sys2Proof.Machine.execRefresh chan s
  | .selfRefreshEntry chan deep => Sys2Proof.Machine.execSelfRefreshEntry chan deep s
  | .selfRefreshExit chan => Sys2Proof.Machine.execSelfRefreshExit chan s
  | .hcReset => Sys2Proof.Machine.execHcReset s
  | .resetAssert => Sys2Proof.Machine.execResetAssert s
  | .resetRelease straps mgmtAddr pwrOk answers8D => Sys2Proof.Machine.execResetRelease straps mgmtAddr pwrOk answers8D s
  | .pwrOkFall => Sys2Proof.Machine.execPwrOkFall s
  | .firmwareUp ports => Sys2Proof.Machine.execFirmwareUp ports s
  | .mcRestartEnd => Sys2Proof.Machine.execMcRestartEnd s
  | .calEnableChange low => Sys2Proof.Machine.execCalEnableChange low s
  | .brakeAssert => Sys2Proof.Machine.execBrakeAssert s
  | .brakeRelease => Sys2Proof.Machine.execBrakeRelease s
  | .ppsInEdge tick => Sys2Proof.Machine.execPpsInEdge tick s
  | .eventPinEdge pin instant rising => Sys2Proof.Machine.execEventPinEdge pin instant rising s
  | .windowClose pin => Sys2Proof.Machine.execWindowClose pin s
  | .recFlush port => Sys2Proof.Machine.execRecFlush port s
  | .pgEdge pg => Sys2Proof.Machine.execPgEdge pg s
  | .ppsOutSecond => Sys2Proof.Machine.execPpsOutSecond s
  | .mclkSwitch n => Sys2Proof.Machine.execMclkSwitch n s
  | .pinCalibration pin passed => Sys2Proof.Machine.execPinCalibration pin passed s
  | .syncPeriod => Sys2Proof.Machine.execSyncPeriod s
  | .sync m => Sys2Proof.Machine.execSync m s
  | .delayReq m => Sys2Proof.Machine.execDelayReq m s
  | .delayResp m => Sys2Proof.Machine.execDelayResp m s
  | .sourceLost what => Sys2Proof.Machine.execSourceLost s what
  | .ptpMessage port state asCapable offset domain => Sys2Proof.Machine.execPtpMessage port state asCapable offset s domain
  | .frameStartPacket p => Sys2Proof.Machine.execFrameStartPacket p s
  | .longPacket p => Sys2Proof.Machine.execLongPacket p s
  | .frameEndPacket p => Sys2Proof.Machine.execFrameEndPacket p s
  | .frameTimeout cam exposure => Sys2Proof.Machine.execFrameTimeout cam exposure s
  | .memoryFedFrame pipe => Sys2Proof.Machine.execMemoryFedFrame pipe s
  | .ibi port address payload => Sys2Proof.Machine.execIbi port address payload s
  | .creditArrival channel receiver count => Sys2Proof.Machine.execCreditArrival channel receiver count s
  | .invarInput channel => Sys2Proof.Machine.execInvarInput channel s
  | .checkpointDue => Sys2Proof.Machine.execCheckpointDue s
  | .checkpointSigned => Sys2Proof.Machine.execCheckpointSigned s
  | .ack frame => Sys2Proof.Machine.execAck frame s
  | .reqIdent frame => Sys2Proof.Machine.execReqIdent frame s
  | .reqLast frame => Sys2Proof.Machine.execReqLast frame s
  | .uartRetry => Sys2Proof.Machine.execUartRetry s
  | .data r => Sys2Proof.Machine.execData r s
  | .credit r => Sys2Proof.Machine.execCredit r s
  | .mcastData r policy => Sys2Proof.Machine.execMcastData r policy s
  | .mcastCredit r => Sys2Proof.Machine.execMcastCredit r s
  | .solderBarrier r => Sys2Proof.Machine.execSolderBarrier r s
  | .coll r => Sys2Proof.Machine.execColl r s
  | .memReq r => Sys2Proof.Machine.execMemReq r s
  | .memResp r => Sys2Proof.Machine.execMemResp r s
  | .linkCtrl port nack seq shape => Sys2Proof.Machine.execLinkCtrl port nack seq shape s
  | .portRetrainDone port asym => Sys2Proof.Machine.execPortRetrainDone port asym s
  | .laneDegrade port lane => Sys2Proof.Machine.execLaneDegrade port lane s
  | .laneRetrainDone port lane passed asym => Sys2Proof.Machine.execLaneRetrainDone port lane passed s asym
  | .flowFrameRx port etherType data => Sys2Proof.Machine.execFlowFrameRx port etherType data s
  | .stackReadReturn r => Sys2Proof.Machine.execStackReadReturn r s
  | .linkRetrainDone stack link passed => Sys2Proof.Machine.execLinkRetrainDone stack link passed s
  | .stackScrub stack bank row found line => Sys2Proof.Machine.execStackScrub stack bank row found s line
  | .spRepair core line => Sys2Proof.Machine.execSpRepair core line s
  | .faultResolved page data => Sys2Proof.Machine.execFaultResolved page data s
  | .hostFillRequest => Sys2Proof.Machine.execHostFillRequest s
  | .fillTimeout => Sys2Proof.Machine.execFillTimeout s
  | .retirement e => Sys2Proof.Machine.execRetirement e s
  | .placementSwitch => Sys2Proof.Machine.execPlacementSwitch s
  | .backgroundTest target passed => Sys2Proof.Machine.execBackgroundTest target passed s
  | .columnSwap core quadrant => Sys2Proof.Machine.execColumnSwap core quadrant s
  | .calibration kind passed => Sys2Proof.Machine.execCalibration kind passed s
  | .domainOnDone domain => Sys2Proof.Machine.execDomainOnDone domain s
  | .bankGroupZeroed core group => Sys2Proof.Machine.execBankGroupZeroed core group s
  | .powerSample p => Sys2Proof.Machine.execPowerSample p s
  | .thermalStep temps => Sys2Proof.Machine.execThermalStep temps s
  | .opStepSettled => Sys2Proof.Machine.execOpStepSettled s
  | .matchUpdate rates => Sys2Proof.Machine.execMatchUpdate rates s
  | .droopFire unit => Sys2Proof.Machine.execDroopFire unit s
  | .droopClear => Sys2Proof.Machine.execDroopClear s
  | .thermalTrip sensor temp => Sys2Proof.Machine.execThermalTrip sensor temp s
  | .tripCooling => Sys2Proof.Machine.execTripCooling s
  | .tripRestart => Sys2Proof.Machine.execTripRestart s
  | .managementControllerRestart => Sys2Proof.Machine.execManagementControllerRestart s
  | .jtagInstruction code data => Sys2Proof.Machine.execJtagInstruction code data s
  | .gateInterval port => Sys2Proof.Machine.execGateInterval port s
  | .announceInterval => Sys2Proof.Machine.execAnnounceInterval s
  | .ref10mInReturn => Sys2Proof.Machine.execRef10mInReturn s
  | .pulseEnd pin => Sys2Proof.Machine.execPulseEnd pin s
  | .hcResetRelease => Sys2Proof.Machine.execHcResetRelease s
  | .dynamicAddressAssignment address => Sys2Proof.Machine.execDynamicAddressAssignment address s

end Sys2Proof.Machine
end

