-- ==== Sys2Proof/Machine/Step.lean ====
section
/-! DEFINITION. Machine/Step.lean: one step of the block: the command at the front of the queue, or the passing of time when none waits (R215). -/

namespace Sys2Proof.Machine

open Sys2Proof

/-- One step: the command at the front of `pending` runs on the state with the queue's rest; with none the block idles. DESIGN CHOICE (log 2). DESIGN CHOICE (log 103). -/
def step (s : State) : Host.Outcome State Fault Refusal :=
  match s.pending with
  | [] => .next s.idle
  | c :: rest => exec c { s with pending := rest }

/-- The state with the command that a word spells at the front of its queue; unchanged where the word spells none. DESIGN CHOICE (log 102). -/
def State.withFetchWord (s : State) (nbits w : Nat) : State :=
  match decodeTableWord nbits w with
  | some c => { s with pending := c :: s.pending }
  | none => s

end Sys2Proof.Machine
end

