-- ==== Sys2Proof/Safety.lean ====
section
/-! DEFINITION. Safety.lean: what claims call a safe state: memories in canonical form, a device held in reset, fuses that only burn; and the vocabulary of
claims about commands: a device that serves, a command that its queue starts at once. -/

namespace Sys2Proof.Machine

open Sys2Proof

/-- Stack memory, window SRAM and flash are in canonical form. -/
def State.memOk (s : State) : Bool := Memory.wf s.mem && Memory.wf s.window && canon (0xFF : Byte) s.flash

/-! ## Reset -/

/-- The commands that change whether the device is held in reset (R53, R368). -/
def isResetEvent : Instr → Bool
  | .resetAssert => true
  | .resetRelease _ _ _ _ => true
  | .pwrOkFall => true
  | _ => false

/-- A command that can end a reset: RESET_RELEASE with PWR_OK high (R368). -/
def endsReset : Instr → Bool
  | .resetRelease _ _ pwrOk _ => pwrOk
  | _ => false

/-- The block is held in reset, and no command that waits ends that. -/
def State.heldInReset (s : State) : Bool := s.boot.inReset && s.pending.all (fun c => !endsReset c)

/-! ## Fuses -/

/-- A key that is enrolled stays, and its generation's state does not fall (R354). -/
def Generation.keeps (old new : Generation) : Prop :=
  old.state ≤ new.state ∧ (old.state ≠ 0 → new.modulus = old.modulus ∧ new.slh = old.slh)

/-- What fuses say after a step they said before it: steps and switches that are burnt stay burnt, retired elements stay retired, keys that are
enrolled stay (R313, R342, R353, R354). -/
def Otp.keeps (old new : Otp) : Prop :=
  old.ladder ≤ new.ladder ∧ old.audit ≤ new.audit ∧ (old.vendorOff = true → new.vendorOff = true) ∧ (old.invarOff = true → new.invarOff = true) ∧
  (∀ x ∈ old.units, x ∈ new.units) ∧ (∀ x ∈ old.sequencers, x ∈ new.sequencers) ∧
  (∀ (i : Fin 3) (g : Fin 4), Generation.keeps old.slots[i][g] new.slots[i][g])

/-! ## The vocabulary of claims -/

/-- The device serves its host: out of reset, firmware up, no trip, no restart of the management controller and no discovery. -/
def State.serving (s : State) : Bool := !s.boot.inReset && s.boot.up && s.trip.isNone && !s.mgmt.restart && !s.host.discovery

/-- The queue stands at the command, runs, and nothing of R63 keeps the command from starting; it has no launch time. -/
def State.starts (s : State) (q : QueueId) (c : Command) : Bool :=
  !s.boot.inReset && s.live q && decide (s.fetch q = some c) && decide (s.blocked q c.hdr c.body = none) && !s.readsPending q c.body && !c.hdr.timed

/-- The holder that the next command of a queue becomes. -/
def State.holder (s : State) (q : QueueId) : Holder := ⟨q, (s.queue q).seq⟩

/-- The state in which a command of a queue is in progress and none of its work is done. -/
def State.begun (s : State) (q : QueueId) (c : Command) : State := (s.begin q c).2

/-- The record of a queue after a command has started: it stands at the next command, and the command's entry, changed by `f`, is in progress. -/
def QState.moved (k : QState) (c : Command) (now : Nat) (f : InProg → InProg) : QState :=
  { k with
    pc := k.pc + 1, ended := c.hdr.last, wait := .running, seq := k.seq + 1, buffer := k.refill
    prog := (k.prog ++ [(⟨k.seq, k.pc, now, c, false, false, false, Mover.idle⟩ : InProg)]).map (fun e => if e.seq == k.seq then f e else e) }

/-- The entry of a command whose work is finished: it may complete. -/
def InProg.finished (e : InProg) : InProg := { e with worked := true }

/-- The state in which a command of a queue has started and its work is finished, and nothing else has changed. -/
def State.past (s : State) (q : QueueId) (c : Command) : State :=
  { s with queues := put QState.start s.queues (queueKey q) ((s.queue q).moved c s.now InProg.finished) }

/-- The state `u`, with a command that the queue has started from `s` in progress and its engine at `m`. -/
def State.engaged (s : State) (q : QueueId) (c : Command) (m : Mover) (u : State) : State :=
  { u with queues := put QState.start s.queues (queueKey q) ((s.queue q).moved c s.now (fun e => { e with mover := m })) }

/-- A command that its queue starts does `work` and then what follows it, and the block takes the state that leaves. -/
def State.runsAs (s : State) (i : Instr) (q : QueueId) (c : Command) (work : Holder → State → State) (after : State → State) : Prop :=
  s.starts q c = true → exec i s = .next (s.settle (after (work (s.holder q) (s.begun q c))))

/-! ## Commands that work in one scratchpad -/

/-- The register cells that count what a command of a unit does: its core's block, and the unit's error counters (R339). -/
def unitCell (u : UnitId) (k : Nat) : Bool :=
  (decide (coreBlk (coreOf u) ≤ k) && decide (k < coreBlk (coreOf u) + 0x1000)) || k == bank 0x300 (coreBlk (coreOf u) + 0x21C) ||
  k == cScaleSkew u || k == cPoisonedTile u || k == blkInv + 0x05C

/-- What a command of an array or vector queue, SPFILL and SPCOPY leave: only the scratchpad of its unit, the unit's counters, the record of its queue (it stands behind the
command, whose work is finished, and has the marks that the command consumed) and the number of marks change. -/
structure State.coreOnly (s t : State) (q : QueueId) (c : Command) : Prop where
  rest : t = { s with cores := t.cores, regs := t.regs, queues := t.queues, job := { s.job with markNo := t.job.markNo } }
  others : ∀ n : Fin 7, n ≠ coreOf q.unit → t.cores[n] = s.cores[n]
  power : ∀ n : Fin 7, t.cores[n].on = s.cores[n].on
  regs : canon (0 : Word) s.regs = true → canon (0 : Word) t.regs = true ∧
    ∀ k, unitCell q.unit k = false → look (0 : Word) t.regs k = look (0 : Word) s.regs k
  queue : ∃ marks, t.queues = put QState.start s.queues (queueKey q)
    { (s.queue q).moved c s.now InProg.finished with marks := (s.queue q).marks ++ marks }

/-- The commands that work in one scratchpad: those of arrays and vector units, SPFILL and SPCOPY, with their queue and command. -/
def coreCommand : Instr → Option (QueueId × Command)
  | .matmul q h o => some (q, ⟨h, .matmul o⟩)
  | .matmulS2 q h o => some (q, ⟨h, .matmulS2 o⟩)
  | .wconv q h o => some (q, ⟨h, .wconv o⟩)
  | .wconvDiag q h o => some (q, ⟨h, .wconvDiag o⟩)
  | .vadd q h o => some (q, ⟨h, .vadd o⟩)
  | .vsub q h o => some (q, ⟨h, .vsub o⟩)
  | .vmul q h o => some (q, ⟨h, .vmul o⟩)
  | .vfma q h o => some (q, ⟨h, .vfma o⟩)
  | .vmax q h o => some (q, ⟨h, .vmax o⟩)
  | .vmin q h o => some (q, ⟨h, .vmin o⟩)
  | .vunary q h o => some (q, ⟨h, .vunary o⟩)
  | .vcmp q h o => some (q, ⟨h, .vcmp o⟩)
  | .vsel q h o => some (q, ⟨h, .vsel o⟩)
  | .vexp2 q h o => some (q, ⟨h, .vexp2 o⟩)
  | .vlog2 q h o => some (q, ⟨h, .vlog2 o⟩)
  | .vrecip q h o => some (q, ⟨h, .vrecip o⟩)
  | .vrsqrt q h o => some (q, ⟨h, .vrsqrt o⟩)
  | .vact q h o => some (q, ⟨h, .vact o⟩)
  | .vreduce q h o => some (q, ⟨h, .vreduce o⟩)
  | .vepilogue q h o => some (q, ⟨h, .vepilogue o⟩)
  | .vqs2 q h o => some (q, ⟨h, .vqs2 o⟩)
  | .vquant q h o => some (q, ⟨h, .vquant o⟩)
  | .vdequant q h o => some (q, ⟨h, .vdequant o⟩)
  | .vrescale q h o => some (q, ⟨h, .vrescale o⟩)
  | .vpool q h o => some (q, ⟨h, .vpool o⟩)
  | .vargmax q h o => some (q, ⟨h, .vargmax o⟩)
  | .vpoolBwd q h o => some (q, ⟨h, .vpoolBwd o⟩)
  | .spFill q h o => some (q, ⟨h, .spFill o⟩)
  | .spCopy q h o => some (q, ⟨h, .spCopy o⟩)
  | _ => none

/-- An elementwise vector command: its queue and command, its operands, whether it reads B and C, and the value and the lane saturations of one element, from
whether its lanes are integer and its elements of A, B and C (R91, R92). -/
structure Elementwise where
  queue : QueueId
  cmd : Command
  ops : VecOps
  needB : Bool
  needC : Bool
  value : Bool → Val → Val → Val → Val × Nat

/-- The elementwise vector commands and what each computes (R91, R92). -/
def elementwise : Instr → Option Elementwise
  | .vadd q h o => some ⟨q, ⟨h, .vadd o⟩, o, true, false, fun il a b _ => lane il (a.add b)⟩
  | .vsub q h o => some ⟨q, ⟨h, .vsub o⟩, o, true, false, fun il a b _ => lane il (a.add b.negate)⟩
  | .vmul q h o => some ⟨q, ⟨h, .vmul o⟩, o, true, false, fun il a b _ => lane il (a.mul b)⟩
  | .vfma q h o => some ⟨q, ⟨h, .vfma o⟩, o, true, true, fun il a b c => lane il ((a.mul b).add c)⟩
  | .vmax q h o => some ⟨q, ⟨h, .vmax o⟩, o, true, false, fun _ a b _ => (a.max b, 0)⟩
  | .vmin q h o => some ⟨q, ⟨h, .vmin o⟩, o, true, false, fun _ a b _ => (a.min b, 0)⟩
  | .vunary q h o => some ⟨q, ⟨h, .vunary o⟩, o, false, false, fun il a _ _ => unary o.func il a⟩
  | .vcmp q h o => some ⟨q, ⟨h, .vcmp o⟩, o, true, false, fun _ a b _ => (if compareVals o.func a b then Val.ofInt 1 else .zero, 0)⟩
  | .vsel q h o => some ⟨q, ⟨h, .vsel o⟩, o, true, true, fun _ a b c => (if a.isZero then c else b, 0)⟩
  | .vexp2 q h o => some ⟨q, ⟨h, .vexp2 o⟩, o, false, false, fun _ a _ _ => (ofFp32 (fexp2 a), 0)⟩
  | .vlog2 q h o => some ⟨q, ⟨h, .vlog2 o⟩, o, false, false, fun _ a _ _ => (ofFp32 (flog2 a), 0)⟩
  | .vrecip q h o => some ⟨q, ⟨h, .vrecip o⟩, o, false, false, fun _ a _ _ => (ofFp32 (frecip a), 0)⟩
  | .vrsqrt q h o => some ⟨q, ⟨h, .vrsqrt o⟩, o, false, false, fun _ a _ _ => (ofFp32 (frsqrt a), 0)⟩
  | .vact q h o => some ⟨q, ⟨h, .vact o⟩, o, o.func == 1 || o.func == 2, o.func == 2, fun _ a b c => (activation o.func a b c, 0)⟩
  | _ => none

/-- The lines an elementwise command reads. -/
def Elementwise.reads (e : Elementwise) (fi : Fmt) : List Nat :=
  aLines e.ops fi.width ++ (if e.needB then bLinesOf e.ops else []) ++ (if e.needC then cLinesOf e.ops else [])

/-- The code of the result in row `r`, column `k`: the value of its elements, B and C as FP32 or INT32, converted to FMT_OUT (R83, R91). -/
def Elementwise.code (e : Elementwise) (fi fo : Fmt) (c : Core) (r k : Nat) : Nat :=
  let wide (x : Nat) : Val := if fi == .int32 then decode .int32 x else ofFp32 x
  (conv fo (e.value (fi == .int32) (decode fi (aElem c e.ops fi.width r k)) (if e.needB then wide (bElem c e.ops r k) else .zero)
    (if e.needC then wide (cElem c e.ops r k) else .zero)).1).code

/-- The commands that move data in steps, from where they stand until they wait or are done: their queue and command, and how they go on (R63, R134, R146). -/
def movingCommand : Instr → Option (QueueId × Command × (Holder → State → State))
  | .xfer q h o => some (q, ⟨h, .xfer o⟩, fun k s => s.runXfer k h o)
  | .pgTouch q h o => some (q, ⟨h, .pgTouch o⟩, fun k s => s.runTouch k o)
  | .nWrite q h o => some (q, ⟨h, .nWrite o⟩, fun k s => s.runNWrite k o)
  | .ewin q h o => some (q, ⟨h, .ewin o⟩, fun k s => s.runEwin k o)
  | .ppParam q h o => some (q, ⟨h, .ppParam o⟩, fun k s => s.runParam k false o)
  | .ppBParam q h o => some (q, ⟨h, .ppBParam o⟩, fun k s => s.runParam k true o)
  | .ppBRows q h o => some (q, ⟨h, .ppBRows o⟩, fun k s => s.runBRows k o)
  | .sldColl q h o => some (q, ⟨h, .sldColl o⟩, fun k s => s.runColl k o)
  | .ethFlow q h o => some (q, ⟨h, .ethFlow o⟩, fun k s => s.runEthFlow k o)
  | .ethSend q h o => some (q, ⟨h, .ethSend o⟩, fun k s => s.runEthSend k h.timed o)
  | .ethGcl q h o => some (q, ⟨h, .ethGcl o⟩, fun k s => s.runEthGcl k o)
  | .sctlRead q h o => some (q, ⟨h, .sctlRead o⟩, sctlReadWork o)
  | _ => none

/-! ## Register writes -/

/-- The rows of the command table that are writes of one register outside the upload buffer, and the offset and the word that each writes (R8, R10). DESIGN CHOICE (log 96). -/
def registerRow : Instr → Option (Nat × Word)
  | .chnSel w => some (0x1010, w)
  | .loadChunk w => some (0x08C, w)
  | .loadAbort w => some (0x080, (w &&& 0xFFFF_FFFE) ||| 2)
  | .dbRing w => some (0x100, w)
  | .kill w => some (0x110, (w &&& 0xFFFF_FFFD) ||| 1)
  | .rearm w => some (0x110, (w &&& 0xFFFF_FFFE) ||| 2)
  | .hostIrqClear w => some (0x2004, w)
  | .memBwSplit w => some (0x3400, w)
  | .memPtSel w => some (0x340C, w)
  | .memFillDone w => some (0x342C, w)
  | .spDebugRead core w => if core < 6 then some (0x10340 + 0x1000 * core, w ||| 0x8000_0000) else none
  | .setArm w => some (0x4018, w ||| 1)
  | .pinForce level w => some (if level then 0x404C else 0x4048, w)
  | .tokenSubmit w => some (0x9060, w ||| 1)
  | .rollbackCommit w => some (0x904C, w ||| 0x8000)
  | .attestStart w => some (0x9070, (w &&& 0xFFFF_FFFD) ||| 1)
  | .attestRelease w => some (0x9070, (w &&& 0xFFFF_FFFE) ||| 2)
  | .invReplay w => some (0xA060, w)
  | .pwrCapWrite w => some (0x7004, w)
  | .registerWrite offset w => if offset < 0x30000 then some (offset / 4 * 4, w) else none
  | _ => none

end Sys2Proof.Machine
end

