-- ==== Sys2Proof/Certificates/Slice0/Obligations.lean ====
section
/-! DEFINITION. Certificates/Slice0/Obligations.lean: the statements about the block, one definition each. -/

open Sys2Proof Sys2Proof.Machine

/-! ## The machine: steps, outcomes, reset, fuses -/

/-- A step takes the command at the front of the queue and runs it on the state with the queue's rest. -/
def Obligations.StepRunsFront : Prop :=
  ∀ (c : Instr) (rest : List Instr) (s : State), step { s with pending := c :: rest } = exec c { s with pending := rest }

/-- With no command waiting the block idles: time passes by a free number of ticks of the local clock, each corrected by TIME_FREQ and by the slew that is left, of which at most 500 ppm is taken
(R215, R216); in reset it does not pass. That time passes then is the model's choice (assumption 2). -/
def Obligations.StepIdlesWhenNothingWaits : Prop :=
  ∀ s : State, s.pending = [] →
    (s.boot.inReset = true → step s = .next s) ∧
    (∀ (n : Nat) (most slew x : Int), s.boot.inReset = false → n = Config.idleTicks s.free → most = ((n * 256 * 500 / 1_000_000 : Nat) : Int) →
      slew = max (-most) (min most s.time.slew) → x = (n : Int) * 2 ^ 40 + n * s.time.freq - slew * 2 ^ 32 + s.time.frac →
      step s = .next { s with
        now := (s.now + (x / 2 ^ 40).toNat) % 2 ^ 64
        free := s.free + 1
        time := { s.time with slew := s.time.slew - slew, frac := (x % 2 ^ 40).toNat } })

/-- Every command completes with a next state, in every state: no command of the block stops it. -/
def Obligations.EveryCommandCompletes : Prop := ∀ (i : Instr) (s : State), ∃ t, exec i s = .next t

/-- No command changes the commands that wait behind it, or which part the block is. -/
def Obligations.CommandsThatWaitStay : Prop :=
  ∀ (i : Instr) (s t : State), exec i s = .next t → t.pending = s.pending ∧ t.part = s.part

/-- Only RESET_ASSERT, RESET_RELEASE and PWR_OK_FALL change whether the device is held in reset, and while it is held every other command
leaves it as it is (R368; that it ignores them is the model's choice, assumption 9). -/
def Obligations.OnlyResetEventsChangeReset : Prop :=
  ∀ (i : Instr) (s t : State), isResetEvent i = false → exec i s = .next t →
    t.boot.inReset = s.boot.inReset ∧ (s.boot.inReset = true → t = s)

/-- Every step keeps a device in reset while no RESET_RELEASE with PWR_OK high waits: nothing else ends a reset (R368, R369). -/
def Obligations.ResetHoldsUntilRelease : Prop :=
  ∀ s t : State, s.heldInReset = true → step s = .next t → t.heldInReset = true

/-- The state after reset is held in reset. -/
def Obligations.ResetStateIsHeld : Prop := State.reset.heldInReset = true

/-- Every step keeps what fuses say: ladders, switches, retirements and key generations only move one way, whatever the command, RESET_N and PWR_OK
included (R313, R342, R353, R354). -/
def Obligations.FusesOnlyBurn : Prop :=
  ∀ s t : State, step s = .next t → s.otp.keeps t.otp

/-- Registers whose reset value the spec gives and is not zero read it after reset: DEV_LOAD_CTRL, MEM_BW_SPLIT, MEM_FILL_TIMEOUT, TIME_CTRL, TIME_STEP_LIMIT,
PWR_TJ and PWR_TRIP; memories and the register file are in canonical form, and no command waits. That stack memory and the window list nothing, and so
read as zeros at reset, is the model's choice (assumption 11). -/
def Obligations.ResetRegisters : Prop :=
  State.reset.reg 0x080 = 0x6400 ∧ State.reset.reg 0x3400 = 0x01340134 ∧ State.reset.reg 0x3430 = 0x64 ∧ State.reset.reg 0x4018 = 0x10A00 ∧
  State.reset.reg 0x401C = 0x3E8 ∧ State.reset.reg 0x7018 = 0x5F5F69 ∧ State.reset.reg 0x701C = 1 ∧ State.reset.reg 0x2004 = 0 ∧
  State.reset.memOk = true ∧ canon (0 : Word) State.reset.regs = true ∧ State.reset.mem = [] ∧ State.reset.window = [] ∧ State.reset.pending = []

/-- RESET_ASSERT and PWR_OK_FALL leave the device in reset with every register at its reset value, no stream, no channel, empty scratchpads and window SRAM,
Invar stopped and no trip; fuses, flash and the commands that wait stay (R368). PWR_TRIP keeps its count of trips (R337). -/
def Obligations.ResetClearsTheDevice : Prop :=
  ∀ (i : Instr) (s : State), i = .resetAssert ∨ i = .pwrOkFall → ∃ t, exec i s = .next t ∧
    t.boot = Boot.reset ∧ t.stream = none ∧ t.job = Job.reset ∧ t.loader = Loader.reset ∧ t.chans = [] ∧ t.queues = [] ∧ t.tokens = [] ∧ t.timers = [] ∧
    t.window = [] ∧ t.pages = [] ∧ (∀ n : Fin 7, t.cores[n].lines = [] ∧ t.cores[n].claims = [] ∧ t.cores[n].on = 0) ∧
    t.inv = State.reset.inv ∧ t.pwr = PowerCtl.reset ∧ t.trip = none ∧ t.host = HostPort.reset ∧ t.power.on = 0 ∧ t.now = 0 ∧
    (∀ k, k ≠ 0x701C → look (0 : Word) t.regs k = look (0 : Word) (regsReset s.part) k) ∧
    t.otp = s.otp ∧ t.flash = s.flash ∧ t.pending = s.pending ∧ t.part = s.part

/-- RESET_RELEASE with PWR_OK high latches the straps, ends the reset and switches domain 93 on; with PWR_OK low the device stays in reset, unchanged (R368, R369). -/
def Obligations.ResetReleaseLatchesStraps : Prop :=
  ∀ (straps mgmtAddr : Nat) (pwrOk d : Bool) (s : State), s.boot.inReset = true →
    (pwrOk = false → exec (.resetRelease straps mgmtAddr pwrOk d) s = .next s) ∧
    (pwrOk = true → ∃ t, exec (.resetRelease straps mgmtAddr pwrOk d) s = .next t ∧ t.boot.inReset = false ∧ t.boot.straps = straps ∧
      t.boot.mgmtAddr = mgmtAddr ∧ t.power.on.getLsbD 93 = true)

/-! ## Queues (R63-R71) -/

/-- NOP and PP_BAND, once their queue starts them, move their queue past them and finish their work; nothing else changes until they complete (R63, R198). -/
def Obligations.NopAndBandMoveTheirQueueOnly : Prop :=
  ∀ (q : QueueId) (h : Header) (s : State),
    (s.starts q ⟨h, .nop⟩ = true → exec (.nop q h) s = .next (s.past q ⟨h, .nop⟩)) ∧
    (∀ o : BandOps, s.starts q ⟨h, .ppBand o⟩ = true → exec (.ppBand q h o) s = .next (s.past q ⟨h, .ppBand o⟩))

/-- LAUNCH_AT arms its timer for its queue's next command: at TICK in MODE 0, TICK after the timer's previous scheduled tick in MODE 1, modulo
2^64; no other timer and nothing else changes (R67). -/
def Obligations.LaunchAtArmsItsTimer : Prop :=
  ∀ (q : QueueId) (h : Header) (o : LaunchAtOps) (s : State), s.starts q ⟨h, .launchAt o⟩ = true →
    exec (.launchAt q h o) s = .next { s with
      queues := put QState.start s.queues (queueKey q)
        { (s.queue q).moved ⟨h, .launchAt o⟩ s.now InProg.finished with armed := some o.timer }
      timers := put LaunchTimer.unused s.timers o.timer
        ⟨if o.mode = 0 then o.tick else ((look LaunchTimer.unused s.timers o.timer).sched + o.tick) % 2 ^ 64, true, none⟩ }

/-- JUMP (R65), case by case of its loop slot: with COUNT 0 it always moves to TARGET; an inactive slot takes COUNT − 1 and it moves; a slot above 0
falls by one and it moves; a slot at 0 becomes inactive and the queue goes on behind it. The JUMP then completes; other queues and all else stay until it does. -/
def Obligations.JumpFollowsItsSlot : Prop :=
  ∀ (q : QueueId) (h : Header) (o : JumpOps) (s : State) (slot : Option Nat), s.starts q ⟨h, .jump o⟩ = true →
    (s.queue q).slots[o.slot]? = some slot → ∃ u : State,
      exec (.jump q h o) s = .next (s.settle (u.completeCmd (s.holder q))) ∧ u = { s with queues := u.queues } ∧
      (∀ p, queueKey p ≠ queueKey q → u.queue p = s.queue p) ∧
      (o.count = 0 → (u.queue q).pc = o.target ∧ (u.queue q).slots = (s.queue q).slots) ∧
      (o.count ≠ 0 → slot = none → (u.queue q).pc = o.target ∧ (u.queue q).slots[o.slot]? = some (some (o.count - 1))) ∧
      (∀ n, o.count ≠ 0 → slot = some (n + 1) → (u.queue q).pc = o.target ∧ (u.queue q).slots[o.slot]? = some (some n)) ∧
      (o.count ≠ 0 → slot = some 0 → (u.queue q).pc = (s.queue q).pc + 1 ∧ (u.queue q).slots[o.slot]? = some none) ∧
      (∀ n, n ≠ o.slot → (u.queue q).slots[n]? = (s.queue q).slots[n]?)

/-- BARRIER while a participant is missing (R69): its queue has arrived and starts nothing more, and no other queue is moved. Then the power controller
looks at the phase, which has not changed. -/
def Obligations.BarrierArrives : Prop :=
  ∀ (q : QueueId) (h : Header) (o : BarrierOps) (s : State) (p : QueueId), s.starts q ⟨h, .barrier o⟩ = true →
    p ∈ s.participants q o.id → p ≠ q → p ∉ (s.arrivals (barrierKey q o.id)).queues → ∃ u : State,
      exec (.barrier q h o) s = .next (s.settle u.afterPhase) ∧ u = { s with queues := u.queues, job := { s.job with barriers := u.job.barriers } } ∧
      (u.queue q).wait = ⟨4, 0, false, 0⟩ ∧ u.fetch q = none ∧ q ∈ (u.arrivals (barrierKey q o.id)).queues ∧
      (∀ p, queueKey p ≠ queueKey q → u.queue p = s.queue p)

/-- BARRIER of the last participant (R69): a SCOPE 0 barrier, and every barrier of Invar, is released on this device at once; a SCOPE 1 barrier is reported
to the domain. -/
def Obligations.BarrierReleases : Prop :=
  ∀ (q : QueueId) (h : Header) (o : BarrierOps) (s : State), s.starts q ⟨h, .barrier o⟩ = true →
    (∀ p ∈ s.participants q o.id, p = q ∨ p ∈ (s.arrivals (barrierKey q o.id)).queues) → ∃ (u : State) (a : Arrivals),
      u = { s with queues := u.queues, job := { s.job with barriers := u.job.barriers } } ∧ u.arrivals (barrierKey q o.id) = a ∧
      (∀ p, p ∈ a.queues ↔ p = q ∨ p ∈ (s.arrivals (barrierKey q o.id)).queues) ∧
      ((o.scope = 0 ∨ q.unit = .invar) → exec (.barrier q h o) s =
        .next (s.settle (u.releaseBarrier (barrierKey q o.id) o.id false (u.advances (barrierKey q o.id) o.id)).afterPhase)) ∧
      (o.scope ≠ 0 → q.unit ≠ .invar → exec (.barrier q h o) s =
        .next (s.settle ((u.setArrivals (barrierKey q o.id) { a with reported := true, since := s.now }).gatherDomain o.id).afterPhase))

/-- COMPLETE, once its queue starts it, has no work but to complete: its queue stands behind it and nothing else changes (R63, R71). When it completes, in command order, COMPLETED of its doorbell steps
along 1, 2, …, 0xFFFF_FFFF, 1 and the record of that number stands in slot (SEQ − 1) mod (256 × RING_PAGES) of its ring: SEQ, DOORBELL, STATUS, and PHASE and the tick of the completion; no other byte
of the window changes, and its canonical form stays; then its counter is signalled and its IRQ raised as of any command (R64), and what waits goes on. -/
def Obligations.CompleteWritesItsRecord : Prop :=
  ∀ (q : QueueId) (h : Header) (o : CompleteOps) (s : State),
    (s.starts q ⟨h, .complete o⟩ = true → exec (.complete q h o) s = .next (s.past q ⟨h, .complete o⟩)) ∧
    (∀ e : InProg, s.boot.inReset = false → (s.queue q).prog = [e] → e.worked = true → e.done = false → e.cmd = ⟨h, .complete o⟩ → (s.queue q).seq ≠ 0 →
      Memory.wf s.window = true → ∃ u v : State,
      exec (.commandCompletion q) s = .next (s.settle (if h.last && !e.taken then v.nextList q else v).kick) ∧
      v = { u with
        tokens := if h.signal then tweak (0 : Half) u.tokens (unitIdx (signalTarget q h) * 64 + h.signalCtr) (· + 1) else u.tokens
        regs := if h.irq then (u.setRegField rIrq 2 1 1).regs else u.regs } ∧
      let seq := if (look 0 s.job.completed o.doorbell) < 2 ^ 32 - 1 then look 0 s.job.completed o.doorbell + 1 else 1
      let slot := o.ringPage * 4096 + (seq - 1) % (256 * o.ringPages) * 16
      let status := ((s.queue q).marks.filter (fun m => decide (look 0 s.job.dbMark o.doorbell < m.1))).foldl (fun a m => a ||| m.2) 0
      look 0 u.job.completed o.doorbell = seq ∧ (∀ d, d ≠ o.doorbell → look 0 u.job.completed d = look 0 s.job.completed d) ∧
      u.winBytes slot 16 = leBytes 4 seq ++ leBytes 1 o.doorbell ++ leBytes 1 status ++ leBytes 2 s.job.phase ++ leBytes 8 s.now ∧
      (∀ a, a < slot ∨ slot + 16 ≤ a → look (0 : Byte) u.window a = look (0 : Byte) s.window a) ∧ Memory.wf u.window = true ∧
      u = { s.release ⟨q, e.seq⟩ with
        window := u.window
        winErr := u.winErr
        job := { s.job with completed := u.job.completed, dbMark := put 0 s.job.dbMark o.doorbell s.job.markNo }
        queues := put QState.start s.queues (queueKey q) { s.queue q with prog := [] } })

/-- TIME_READ with KIND 0 writes the eight bytes of the time counter, little-endian, into its unit's scratchpad and finishes its work; with another KIND it writes
them to stack memory through the page table (R380). -/
def Obligations.TimeReadReadsTheCounter : Prop :=
  ∀ (q : QueueId) (h : Header) (o : TimeReadOps) (s : State),
    (o.kind = 0 → s.runsAs (.timeRead q h o) q ⟨h, .timeRead o⟩ (fun k u =>
      (u.writeLines (coreOf q.unit) (some k) false [{ byteWrite (o.dest / 64) (o.dest % 64) (leBytes 8 s.now) false false with src := 3 }]).worked k) id) ∧
    (o.kind ≠ 0 → s.runsAs (.timeRead q h o) q ⟨h, .timeRead o⟩ (fun k u => u.runTimeRead k o) id)

/-- A command whose WAIT is not met does not start: Q_WAIT says for which counter, and nothing else changes (R63). -/
def Obligations.UnmetWaitHoldsTheQueue : Prop :=
  ∀ (q : QueueId) (h : Header) (s : State), s.boot.inReset = false → s.live q = true → s.fetch q = some ⟨h, .nop⟩ → s.switchingOn q.unit = false →
    h.wait = true →
    ((if h.waitBank then s.doorbell h.waitCtr else s.token q.unit h.waitCtr) + 2 ^ 16 - h.waitValue % 2 ^ 16) % 2 ^ 16 ≥ 0x8000 →
    exec (.nop q h) s = .next (s.setQueue q { s.queue q with wait := ⟨1, h.waitCtr, h.waitBank, 0⟩ })

/-- The launch rule (R68). A TIMED command outside the pin class, here a NOP: before its tick it waits for its timer, at its tick it starts, and after it it starts at once and LATE_LAUNCH counts.
A TIMED pin action, here a PIN_SET, that is ready later than its launch tick less tPIN_ARM (and the pin's positive offset) is skipped: the pin does not change, it counts SKIPPED_PIN_ACTION, and the
command completes; a command that starts late keeps that with it (R226). -/
def Obligations.LaunchRule : Prop :=
  ∀ (q : QueueId) (h : Header) (s : State) (n : Nat) (x : LaunchTimer), s.boot.inReset = false → s.live q = true → h.timed = true → (s.queue q).armed = some n → (s.queue q).seq ≠ 0 →
    look LaunchTimer.unused s.timers n = x →
    (s.fetch q = some ⟨h, .nop⟩ → s.blocked q h .nop = none →
      (s.now < x.sched → exec (.nop q h) s = .next { s.setQueue q { s.queue q with wait := ⟨3, 0, false, 0⟩ } with
        timers := put LaunchTimer.unused s.timers n { x with waiting := some q } }) ∧
      (x.sched ≤ s.now → ∃ u : State, u = { s with
          queues := put QState.start s.queues (queueKey q) ({ s.queue q with armed := none }.moved ⟨h, .nop⟩ s.now
            (fun e => if s.now = x.sched then e.finished else { e with worked := true, mover := { e.mover with late := true } }))
          timers := put LaunchTimer.unused s.timers n { x with busy := false, waiting := none } } ∧
        exec (.nop q h) s = .next (if s.now = x.sched then u else u.count (cLateLaunch q.unit) 1))) ∧
    (∀ o : PinSetOps, s.fetch q = some ⟨h, .pinSet o⟩ → s.blocked q h (.pinSet o) = none → s.time.armed.length < 16 → x.sched < s.now + s.armLead (.pinSet o) →
      ∃ t, exec (.pinSet q h o) s = .next t ∧ t.time = s.time ∧ t.reg (cSkippedPin q.unit) = bumped (s.reg (cSkippedPin q.unit)) 1 ∧
        t.queue q = { s.queue q with armed := none }.moved ⟨h, .pinSet o⟩ s.now InProg.finished ∧
        t.timers = put LaunchTimer.unused s.timers n { x with busy := false, waiting := none })

/-- COMMAND_COMPLETION (R64): with one command in progress whose work is finished, it leaves its queue and its effects follow: its claims end, what the spec places
at its completion happens, its counter goes up by one modulo 2^16, its IRQ is raised, and an END that is not a taken JUMP's starts the next list (R66). -/
def Obligations.CompletionTakesEffect : Prop :=
  ∀ (q : QueueId) (s : State) (e : InProg), s.boot.inReset = false → (s.queue q).prog = [e] → e.worked = true → e.done = false → ∃ u v : State,
    exec (.commandCompletion q) s = .next (s.settle (if e.cmd.hdr.last && !e.taken then v.nextList q else v).kick) ∧
    u = ((s.setQueue q { s.queue q with prog := [] }).release ⟨q, e.seq⟩).atEnd q e ∧
    v = { u with
      tokens := if e.cmd.hdr.signal && !tokenSignals e.cmd.body
        then tweak (0 : Half) u.tokens (unitIdx (signalTarget q e.cmd.hdr) * 64 + e.cmd.hdr.signalCtr) (· + 1) else u.tokens
      regs := if e.cmd.hdr.irq then (u.setRegField rIrq 2 1 1).regs else u.regs }

/-- LAUNCH_TICK (R68, R236, R238): pin actions armed on the timer, and those that other timers hold for the same tick, take place in command order at its launch tick; a command that waits for it
starts there; with neither the tick changes nothing by itself; a command that waits for a line that it reads starts later (R121; that the tick then does nothing is the model's choice, assumption 105).
The power controller looks at the phase, and what waits goes on. -/
def Obligations.LaunchTickStarts : Prop :=
  ∀ (timer : Nat) (s : State), s.boot.inReset = false →
    ∀ x, look LaunchTimer.unused s.timers timer = x →
    (∀ (due : List Armed) (u : State), s.time.armed.any (fun a => a.timer == timer) = true → due = s.time.armed.filter (fun a => a.timer == timer || a.tick == x.sched) →
      u = { s with now := max s.now x.sched, time := { s.time with armed := s.time.armed.filter (fun a => !(a.timer == timer || a.tick == x.sched)) } } →
      s.tickHeld timer = false →
      exec (.launchTick timer) s = .next (s.settle (due.foldl (fun u a => runBody a.body a.holder u) (due.foldl (fun u a => { u with
        timers := tweak LaunchTimer.unused u.timers a.timer (fun x => { x with busy := false, waiting := none }) }) u)).afterPhase.kick)) ∧
    (s.tickHeld timer = true → exec (.launchTick timer) s = .next s) ∧
    (s.time.armed.any (fun a => a.timer == timer) = false → x.waiting = none → exec (.launchTick timer) s = .next (s.settle s.afterPhase.kick)) ∧
    (∀ q h, s.time.armed.any (fun a => a.timer == timer) = false → x.waiting = some q → s.fetch q = some ⟨h, .nop⟩ → s.live q = true → (s.queue q).armed = some timer → (s.queue q).seq ≠ 0 →
      exec (.launchTick timer) s = .next (s.settle (State.afterPhase { s with
        now := max s.now x.sched
        queues := put QState.start s.queues (queueKey q) ({ s.queue q with armed := none }.moved ⟨h, .nop⟩ (max s.now x.sched) InProg.finished)
        timers := put LaunchTimer.unused s.timers timer { x with busy := false, waiting := none } }).kick))

/-- Every command of an array or vector unit, SPFILL and SPCOPY, once its queue starts it, completes its work, and only its unit's scratchpad, its unit's counters and its
queue's record change: no stack memory, no window page, no channel, no other core, no token counter. -/
def Obligations.CoreCommandsStayInTheirScratchpad : Prop :=
  ∀ (i : Instr) (q : QueueId) (c : Command) (s : State), coreCommand i = some (q, c) → s.starts q c = true →
    ∃ t, exec i s = .next t ∧ s.coreOnly t q c

/-- SPFILL (R124): once its queue starts it, every line of its block holds the 32-bit VALUE sixteen times, with fresh check bits, COLLIDED and POISON clear and, as step tag, its position in
row-major order modulo 16 (a line that lies in several rows has the last); lines outside the block stay. The lines are claimed by no other command. -/
def Obligations.FillWritesEveryLine : Prop :=
  ∀ (q : QueueId) (h : Header) (o : SpFillOps) (s : State) (block : List Nat), s.starts q ⟨h, .spFill o⟩ = true →
    block = (List.range (o.rowsM1 + 1)).flatMap (fun r => (List.range o.lines).map (fun i => o.destLine + r * o.destPitch + i)) →
    canon Line.zero s.cores[coreOf q.unit].lines = true → (∀ x ∈ s.cores[coreOf q.unit].claims, x.line ∉ block) →
    ∃ t, exec (.spFill q h o) s = .next t ∧
      (∀ (n l : Nat), block[n]? = some l → (∀ m, n < m → block[m]? ≠ some l) →
        t.cores[coreOf q.unit].line l = ⟨BitVec.ofNat 512 (leNat ((List.range 16).flatMap (fun _ => leBytes 4 o.value))), BitVec.ofNat 4 n, false, false, false, 0, 0⟩) ∧
      (∀ l, l ∉ block → t.cores[coreOf q.unit].line l = s.cores[coreOf q.unit].line l)

/-- SPCOPY (R125): once its queue starts it, line n of its destination, in row-major order, has the data, step tag and COLLIDED bit that line n of its source had before the command, even where the two
overlap; POISON where the source had it or was uncorrectable; lines outside the destination keep their data, and all of it but for an upset that the reading corrects or poisons (R129). -/
def Obligations.CopyReadsBeforeItWrites : Prop :=
  ∀ (q : QueueId) (h : Header) (o : SpCopyOps) (s : State) (src dst : List Nat), s.starts q ⟨h, .spCopy o⟩ = true →
    src = blockLines o.srcLine (o.rowsM1 + 1) o.lines o.srcPitch → dst = blockLines o.destLine (o.rowsM1 + 1) o.lines o.destPitch →
    canon Line.zero s.cores[coreOf q.unit].lines = true → (∀ x ∈ s.cores[coreOf q.unit].claims, x.line ∉ dst) →
    ∃ t, exec (.spCopy q h o) s = .next t ∧
      (∀ (n a b : Nat), src[n]? = some a → dst[n]? = some b → (∀ m, n < m → dst[m]? ≠ some b) →
        let x := s.cores[coreOf q.unit].line a
        t.cores[coreOf q.unit].line b = ⟨x.bits, x.tag, x.poison || decide (0 < x.ues), x.collided, x.flagged, 0, 0⟩) ∧
      (∀ l, l ∉ dst → (t.cores[coreOf q.unit].line l).bits = (s.cores[coreOf q.unit].line l).bits ∧
        (t.cores[coreOf q.unit].line l).tag = (s.cores[coreOf q.unit].line l).tag ∧
        ((s.cores[coreOf q.unit].line l).upset = 0 → t.cores[coreOf q.unit].line l = s.cores[coreOf q.unit].line l))

/-- An elementwise vector command, once its queue starts it, writes the rows of its destination: every result is the command's function of its elements converted to FMT_OUT, each row in whole lines with zeros
behind its last element, FLAGGED where an operand line is; where an operand line is POISONED, zeros with POISON instead (R19, R91, R92, R378, R379). The last write of a line decides it; step tags stay; every
line outside the destination stays but for an upset that the reading corrects or poisons (R129). No other command claims the destination. -/
def Obligations.ElementwiseCommandsWriteTheirRows : Prop :=
  ∀ (i : Instr) (e : Elementwise) (fi fo : Fmt) (s : State) (k : Core) (ws : List LineWrite), elementwise i = some e → s.starts e.queue e.cmd = true →
    Fmt.ofCode e.ops.fmtIn = some fi → Fmt.ofCode e.ops.fmtOut = some fo → s.cores[coreOf e.queue.unit] = k → canon Line.zero k.lines = true →
    ws = storedWrites e.ops.dLine fo.width
      (storedRows (vDCol e.ops.vflags) (e.ops.rowsM1 + 1) (e.ops.colsM1 + 1)
        (fun r c => if (e.reads fi).any k.poisoned then 0 else e.code fi fo k r c))
      ((e.reads fi).any k.poisoned) ((e.reads fi).any k.flags) →
    (∀ x ∈ k.claims, ∀ w ∈ ws, x.line ≠ w.line) → ∃ t, exec i s = .next t ∧
      (∀ (n : Nat) (w : LineWrite), ws[n]? = some w → (∀ (m : Nat) (v : LineWrite), n < m → ws[m]? = some v → v.line ≠ w.line) →
        t.cores[coreOf e.queue.unit].line w.line =
          ⟨w.data, (k.line w.line).tag, (e.reads fi).any k.poisoned, false, (e.reads fi).any k.flags, 0, 0⟩) ∧
      (∀ l, (∀ w ∈ ws, w.line ≠ l) → (t.cores[coreOf e.queue.unit].line l).bits = (k.line l).bits ∧
        (t.cores[coreOf e.queue.unit].line l).tag = (k.line l).tag ∧ ((k.line l).upset = 0 → t.cores[coreOf e.queue.unit].line l = k.line l))

/-! ## Commands of queues that act on pins, pages, credits, publications, Invar and buses -/

/-- PIN_SET and PIN_PULSE at their reference tick (R236): the pin takes its level, or inverts for WIDTH ticks, and the action is noted for TRIGGER_TICK; a pin that a running generator drives is
busy, counts PIN_BUSY and does not change (R238). -/
def Obligations.PinSetAndPulseDriveTheirPin : Prop :=
  ∀ (q : QueueId) (h : Header) (s : State),
    (∀ o : PinSetOps, s.starts q ⟨h, .pinSet o⟩ = true →
      (s.genDrives o.pin = true → exec (.pinSet q h o) s = .next ((s.past q ⟨h, .pinSet o⟩).count rPinBusy 1)) ∧
      (s.genDrives o.pin = false → exec (.pinSet q h o) s = .next { s.past q ⟨h, .pinSet o⟩ with
        time := { s.time with pins := s.time.pins.setIfInBounds o.pin { s.pin o.pin with
          level := if o.level = 0 then false else if o.level = 1 then true else !(s.pin o.pin).level, pulse := none } }
        trigs := put [] s.trigs o.pin (look [] s.trigs o.pin ++ [s.now]) })) ∧
    (∀ o : PinPulseOps, s.starts q ⟨h, .pinPulse o⟩ = true →
      (s.genDrives o.pin = true → exec (.pinPulse q h o) s = .next ((s.past q ⟨h, .pinPulse o⟩).count rPinBusy 1)) ∧
      (s.genDrives o.pin = false → exec (.pinPulse q h o) s = .next { s.past q ⟨h, .pinPulse o⟩ with
        time := { s.time with pins := s.time.pins.setIfInBounds o.pin { s.pin o.pin with
          level := !(s.pin o.pin).level, pulse := some ((s.pin o.pin).level, s.now + o.width) } }
        trigs := put [] s.trigs o.pin (look [] s.trigs o.pin ++ [s.now]) }))

/-- PG_START starts its generator on its pin at its reference tick, unless the pin is driven by a running generator or a pulse is in progress on it: then it counts PIN_BUSY (R238, R239). PG_STOP
stops its generator: no pulse begins from there on (R238). A pulse of the generator's earlier run that is high ends at its normal end, WIDTH after its start, as a pulse of its pin. -/
def Obligations.GeneratorsStartAndStop : Prop :=
  ∀ (q : QueueId) (h : Header) (s : State) (left : Nat → Vector Pin 32),
    (∀ n, left n = if (s.gen n).high = true then s.time.pins.setIfInBounds (s.gen n).pin { s.pin (s.gen n).pin with
        pulse := some (!(s.pin (s.gen n).pin).level, (s.gen n).start + (s.gen n).k * (s.gen n).perN / max 1 (s.gen n).perD + (s.gen n).width) }
      else s.time.pins) →
    (∀ o : PgStartOps, s.starts q ⟨h, .pgStart o⟩ = true →
      (s.genDrives o.pin = true ∨ (s.pin o.pin).pulse ≠ none → exec (.pgStart q h o) s = .next ((s.past q ⟨h, .pgStart o⟩).count rPinBusy 1)) ∧
      (s.genDrives o.pin = false → (s.pin o.pin).pulse = none → exec (.pgStart q h o) s = .next { s.past q ⟨h, .pgStart o⟩ with
        time := { s.time with
          pins := left o.pg
          gens := s.time.gens.setIfInBounds o.pg ⟨true, o.pin, s.now, o.width, o.periodN, o.periodD, o.count, 0, false⟩ } })) ∧
    (∀ o : PgStopOps, s.starts q ⟨h, .pgStop o⟩ = true → exec (.pgStop q h o) s = .next { s.past q ⟨h, .pgStop o⟩ with
        time := { s.time with
          pins := left o.pg
          gens := s.time.gens.setIfInBounds o.pg { s.gen o.pg with running := false, high := false } } })

/-- CAP_ARM begins an armed interval with its edges and windows at its reference tick, and CAP_DISARM ends one (R234). On a pin that is not armed, CAP_ARM arms it and CAP_DISARM changes no pin; an
interval in progress ends at the reference tick first, its open window with CUT (R235). Credits and records that this frees let what waits go on. -/
def Obligations.CaptureArmsAndDisarms : Prop :=
  ∀ (q : QueueId) (h : Header) (s : State),
    (∀ o : CapArmOps, s.starts q ⟨h, .capArm o⟩ = true →
      s.runsAs (.capArm q h o) q ⟨h, .capArm o⟩ (fun k u => ((u.disarm o.pin s.now).onPin o.pin (fun p => { p with
        cap := some ⟨o.edges, s.now, o.length, o.period, o.count⟩, win := Window.fresh 0 })).worked k) State.kick ∧
      ((s.pin o.pin).cap = none → exec (.capArm q h o) s = .next (s.settle { s.past q ⟨h, .capArm o⟩ with
        time := { s.time with pins := s.time.pins.setIfInBounds o.pin { s.pin o.pin with
          cap := some ⟨o.edges, s.now, o.length, o.period, o.count⟩, win := Window.fresh 0 } } }.kick))) ∧
    (∀ o : CapDisarmOps, s.starts q ⟨h, .capDisarm o⟩ = true →
      s.runsAs (.capDisarm q h o) q ⟨h, .capDisarm o⟩ (fun k u => (u.disarm o.pin s.now).worked k) State.kick ∧
      ((s.pin o.pin).cap = none → exec (.capDisarm q h o) s = .next (s.settle (s.past q ⟨h, .capDisarm o⟩).kick)))

/-- PGPOLICY sets FILL and FILL_DEVICE of the LAZY pages of its range that are not yet valid; FILL 1 without a direct link to its device sets 3 (refused). Other pages, and all else, stay (R151). PGTOUCH of pages that all can be accessed touches each in its turn and is done (R151). -/
def Obligations.PagePolicySetsLazyPages : Prop :=
  (∀ (q : QueueId) (h : Header) (o : PageOps) (s : State) (fill device : Nat), s.starts q ⟨h, .pgPolicy o⟩ = true → canon (0 : DWord) s.pages = true →
    fill = (if o.fill = 1 ∧ s.directLink o.device = false then 3 else o.fill) → device = (if fill = 1 then o.device else 0) →
    ∃ t, exec (.pgPolicy q h o) s = .next t ∧ t = { s.past q ⟨h, .pgPolicy o⟩ with pages := t.pages } ∧ canon (0 : DWord) t.pages = true ∧
      ∀ p, t.pte p = if o.virtPage ≤ p ∧ p < o.virtPage + o.pages ∧ pteLazy (s.pte p) = true ∧ pteValid (s.pte p) = false
        then setField (setField (s.pte p) 8 2 fill) 36 10 device % 2 ^ 64 else s.pte p) ∧
  ∀ (q : QueueId) (h : Header) (o : PageOps) (s : State), s.starts q ⟨h, .pgTouch o⟩ = true → 0 < o.pages →
    (∀ i, i < o.pages → ∃ p, s.translate ((o.virtPage + i) * 4096) (o.fill % 2 == 1) = .ok p) →
    exec (.pgTouch q h o) s = .next (s.settle ((s.engaged q ⟨h, .pgTouch o⟩ { Mover.idle with next := o.pages } s).worked (s.holder q)).kick)

/-- SPCREDIT sets out COUNT credits for its channel's sender: on this device they are on their way (R17, R128); to another device they go as CREDIT packets of at most 255, or up their multicast tree
(R293, R295). Then what waits for credits goes on. -/
def Obligations.CreditsAreSetOut : Prop :=
  ∀ (q : QueueId) (h : Header) (o : SpCreditOps) (s : State),
    s.runsAs (.spCredit q h o) q ⟨h, .spCredit o⟩ (fun k u => (u.returnCredits o.channel o.count).worked k) State.kick ∧
    (s.starts q ⟨h, .spCredit o⟩ = true → ((s.chan o.channel).ent.kind = 0x08 → field (s.chan o.channel).ent.source 22 10 = s.device) →
      exec (.spCredit q h o) s = .next (s.settle { s.past q ⟨h, .spCredit o⟩ with
        chans := if o.count = 0 then s.chans else (s.onChan o.channel (fun c => { c with flying := c.flying + o.count })).chans }.kick))

/-- PUB_OPEN writes 32 zero bytes at HDR; PUB steps its counter along 1, 2, …, 0xFFFF_FFFF, 1 and writes there the header of its channel's latest completed pass with that SEQ (R258, R259). No other
byte of the window changes, and its canonical form stays. -/
def Obligations.PublicationWritesItsHeader : Prop :=
  ∀ (q : QueueId) (h : Header) (o : PubOps) (s : State), Memory.wf s.window = true →
    (s.starts q ⟨h, .pubOpen o⟩ = true → ∃ t, exec (.pubOpen q h o) s = .next t ∧ t.winBytes o.hdr 32 = List.replicate 32 0 ∧
      (∀ a, a < o.hdr ∨ o.hdr + 32 ≤ a → look (0 : Byte) t.window a = look (0 : Byte) s.window a) ∧ Memory.wf t.window = true ∧
      t = { s.past q ⟨h, .pubOpen o⟩ with window := t.window, winErr := t.winErr }) ∧
    (s.starts q ⟨h, .pub o⟩ = true → ∀ (n : Nat) (p : PassInfo), (s.chan o.channel).last = p →
      n = (if look 0 s.job.pubCount (unitIdx q.unit * 16 + o.pctr) < 2 ^ 32 - 1 then look 0 s.job.pubCount (unitIdx q.unit * 16 + o.pctr) + 1 else 1) →
      ∃ t, exec (.pub q h o) s = .next t ∧
        t.winBytes o.hdr 32 = leBytes 4 n ++ leBytes 2 p.flags ++ leBytes 2 o.slot ++ leBytes 4 p.frame ++ leBytes 2 p.epoch ++ leBytes 2 0 ++
          leBytes 4 p.bytes ++ leBytes 4 p.digest ++ leBytes 8 p.ts ∧
        (∀ a, a < o.hdr ∨ o.hdr + 32 ≤ a → look (0 : Byte) t.window a = look (0 : Byte) s.window a) ∧ Memory.wf t.window = true ∧
        t = { s.past q ⟨h, .pub o⟩ with
          window := t.window
          winErr := t.winErr
          job := { s.job with pubCount := put 0 s.job.pubCount (unitIdx q.unit * 16 + o.pctr) n }
          chans := (s.onChan o.channel (fun c => { c with taken := c.passes })).chans })

/-- A command that moves data in steps (transfers, page touches, neighbour writes, engine windows, parameter sets, rows of the back end, collectives, flows, frames, gate lists, and bytes read from a
sensor) runs from its start, once its queue starts it, until it waits for a credit, a token, a slot, a page or a neighbour, or its work is finished; then whatever that lets go on goes on (R63).
It is finished at once as follows. XFER from a scratchpad to a token, descriptor and source lines being free of pending writes and upsets, and the channel's entry having the same TOKEN_BYTES when the token finds it: the token carries the elements in order, with the marks of what
was read (R134-R138, R141). NWRITE: its block stands in the neighbour's lines, and one token follows it (R127). EWIN with room in the output buffer: the outputs of its positions stand there in order
(R165, R166). PP_PARAM and PP_BPARAM with fewer than four sets pending in their group: the block settles (R180, R205). PP_BROWS: its rows join the frame, the first of which takes the oldest record, and the
last of which runs it to its outputs (R206, R207). SLD_COLL of a scope with one member: its own input, reduced by nothing or gathered alone, stands at DST (R297, R298). -/
def Obligations.MovingCommandsRunUntilTheyWait : Prop :=
  (∀ (i : Instr) (q : QueueId) (c : Command) (work : Holder → State → State) (s : State), movingCommand i = some (q, c, work) →
    s.runsAs i q c work State.kick) ∧
  (∀ (q : QueueId) (h : Header) (o : XferOps) (s : State) (k : Core) (d : XDesc) (data : Nat → List Byte) (lines descLines : List Nat) (m : Mover), s.starts q ⟨h, .xfer o⟩ = true →
    k = s.cores[coreOf q.unit] → descLines = [o.descAddr / 64, o.descAddr / 64 + 1] → d = parseDesc (k.bytes o.descAddr 128) →
    lines = (List.range d.count).flatMap (fun n => match d.src (coordsOf d.countM1 n) with | .addr a => [a / 64] | .pad => []) →
    data = (fun n => match d.src (coordsOf d.countM1 n) with | .addr a => k.bytes a d.size | .pad => d.padBytes) →
    o.descKind = 0 → s.descBad q.unit (s.chan o.channel).ent.tokenBytes d = false → d.srcKind = 0 → d.dstKind = 4 → d.payload = (s.chan o.channel).ent.tokenBytes →
    (∀ l ∈ descLines ++ lines, (k.pendingLines q).contains l = false ∧ (k.line l).upset = 0) → (s.queue q).prog = [] → (q.unit = .invar → s.inv.paused = false) →
    (((s.onChan o.channel (fun c => if o.xflags.testBit 0 then { c.spend with lineNo := 0 } else c.spend)).lookEntry o.channel).chan o.channel).ent.tokenBytes = d.payload →
    m = { Mover.idle with
      desc := some d
      next := d.count
      spent := true
      buf := (List.range d.count).flatMap data
      flagged := descLines.any k.flags || lines.any k.flags
      poisoned := descLines.any k.poisoned || lines.any k.poisoned
      descFlagged := descLines.any k.flags
      descPoisoned := descLines.any k.poisoned } →
    exec (.xfer q h o) s = .next (s.settle (((s.engaged q ⟨h, .xfer o⟩ m (s.onChan o.channel (fun c =>
      if o.xflags.testBit 0 then { c.spend with lineNo := 0 } else c.spend))).endToken (s.holder q) h o 1 m).worked (s.holder q)).kick)) ∧
  (∀ (q : QueueId) (h : Header) (o : NWriteOps) (s : State) (k : Core) (src dst : List Nat) (bytes : List Byte) (d : Fin 7), s.starts q ⟨h, .nWrite o⟩ = true → k = s.cores[coreOf q.unit] →
    src = blockLines o.srcLine (o.rowsM1 + 1) o.lines o.srcPitch → dst = blockLines o.destLine (o.rowsM1 + 1) o.lines o.destPitch → bytes = src.flatMap (fun l => k.bytes (64 * l) 64) →
    (s.chan o.channel).ent.destCore = some d → (∀ l ∈ dst, s.cores[d].shut l = false) → (∀ l ∈ src, (k.pendingLines q).contains l = false) → (s.queue q).prog = [] →
    exec (.nWrite q h o) s = .next (s.settle (((((((s.engaged q ⟨h, .nWrite o⟩ Mover.idle s).touchLines (coreOf q.unit) src).onChan o.channel Chan.spend).writeLines d (some (s.holder q)) false
      ((src.zip dst).map (fun p => { copyLine k p.1 p.2 with flagged := k.flags p.1, collided := false }))).send o.channel
      ⟨o.marks.testBit 0, o.marks.testBit 1, false, (k.marks src).2, (k.marks src).1, false⟩ none s.now bytes bytes (cShedDrop q.unit)).noteMarks q (k.marks src).1 (k.marks src).2).worked
      (s.holder q)).kick)) ∧
  (∀ (q : QueueId) (h : Header) (o : EwinOps) (s : State) (n p live : Nat) (d : WDesc) (run : Nat → OutRun × Nat × Nat) (m : Mover), s.starts q ⟨h, .ewin o⟩ = true → n = unitIndex q.unit →
    s.translate o.descAddr false = .ok p → d = parseWindow (s.memBytes p 64) → ewinBad o d = false → d.empty o.p0 = false → live = min (o.posM1 + 1) (d.positions - o.p0) →
    run = (fun i => ewinRun o d (s.pewter n) (s.memPoisoned p 64) (o.p0 + i)) → (s.pewter n).held + ((List.range live).map (fun i => (run i).1.data.length)).sum ≤ 524288 →
    m = { Mover.idle with
      next := live
      poisoned := (List.range live).any (fun i => (run i).1.poisoned)
      flagged := (List.range live).any (fun i => (run i).1.flagged) } →
    exec (.ewin q h o) s = .next (s.settle (((((s.engaged q ⟨h, .ewin o⟩ m ((List.range live).foldl (fun s i =>
      ((s.onEe n (fun e => { e with out := e.out ++ [(run i).1] })).count (blkEe n + 0x20C) (run i).2.1).count (blkEe n + 0x210) (run i).2.2) (s.stackRead p 64).2.2)).addSteps (blkEe n)
      (live * max 1 (ceilDiv (d.taps * d.cg) 36))).noteMarks q m.poisoned m.flagged).worked (s.holder q))).kick)) ∧
  (∀ (q : QueueId) (h : Header) (o : ParamOps) (s : State) (back : Bool) (c : Command) (r : List Byte × Bool × State),
    c = (if back then ⟨h, .ppBParam o⟩ else ⟨h, .ppParam o⟩) → s.starts q c = true →
    ((if back then (s.cam o.camera).bpending else (s.cam o.camera).pending).filter (fun p => p.group == o.group)).length < 4 →
    (∀ i, i < groupBytes back o.group → ∃ p, s.translate (o.addr + i) false = .ok p) → r = s.virtRead o.addr (groupBytes back o.group) →
    exec (if back then .ppBParam q h o else .ppParam q h o) s = .next (s.settle (((s.engaged q c { Mover.idle with buf := r.1, poisoned := r.2.1 } r.2.2).placeSet (pipeOf q.unit) back o r.1
      r.2.1).worked (s.holder q)).kick)) ∧
  (∀ (q : QueueId) (h : Header) (o : BRowsOps) (s v w : State) (n len : Nat) (row : State → Nat → State) (m : Mover), s.starts q ⟨h, .ppBRows o⟩ = true →
    n = pipeOf q.unit → (s.pipe n).outq = [] →
    (o.bflags.testBit 0 = false ∧ v = s ∨ ∃ i rest, o.bflags.testBit 0 = true ∧ (s.cam o.camera).records = i :: rest ∧
      v = ((s.onCam o.camera (fun k => { k with records := rest })).backStart o.camera i).onPipe n (fun p => { p with back := some ⟨o.camera, i, [], i.flagged, i.poisoned⟩ })) →
    len = (if o.channels = 12 then (v.cam o.camera).beCfg.inW / 2 * 24 else (v.cam o.camera).beCfg.inW * 6) → 0 < len →
    (∀ j i, j < o.rows → i < len → ∃ p, s.translate (o.addr + j * o.pitch * 64 + i) false = .ok p) →
    row = (fun x j => ((x.virtRead (o.addr + j * o.pitch * 64) len).2.2).onPipe n (fun p => { p with back := p.back.map (fun b => { b with
      rows := b.rows ++ browsRows (Fmt.ofCode o.fmt) o.channels (v.cam o.camera).beCfg.inW (x.virtRead (o.addr + j * o.pitch * 64) len).1
      poisoned := b.poisoned || (x.virtRead (o.addr + j * o.pitch * 64) len).2.1 }) })) →
    w = (List.range o.rows).foldl row v → m = { Mover.idle with next := o.rows, spent := true } →
    (o.bflags.testBit 1 = false → exec (.ppBRows q h o) s = .next (s.settle ((s.engaged q ⟨h, .ppBRows o⟩ m w).worked (s.holder q)).kick)) ∧
    (∀ (b : BackFrame) (z : State), o.bflags.testBit 1 = true → (w.pipe n).back = some b →
      z = ((s.engaged q ⟨h, .ppBRows o⟩ m w).onPipe n (fun p => { p with back := none })).backFrame n b.camera b.info b.flagged b.poisoned b.rows → (z.pipe n).outq = [] →
      exec (.ppBRows q h o) s = .next (s.settle ((z.setMover (s.holder q) { z.mover (s.holder q) with sent := 1 }).worked (s.holder q)).kick))) ∧
  ∀ (q : QueueId) (h : Header) (o : CollOps) (s : State) (r : List Byte × Bool × State) (out : List Byte), s.starts q ⟨h, .sldColl o⟩ = true → s.coll o.collId = none →
    (∀ k ∈ s.early, k.channel ≠ o.collId) → members s.dims s.device o.scope = [s.device] → s.collDims o = [] → 0 < inputBytes o →
    (∀ i, i < inputBytes o → ∃ p, s.translate (o.src + i) false = .ok p) → r = s.virtRead o.src (inputBytes o) →
    out = (if o.op < 3 then outputBytes o ((List.range o.elements).map (fun e => widen ((Fmt.ofCode o.fmt).getD .fp32) (field (leNat r.1) (((Fmt.ofCode o.fmt).getD .fp32).width * e)
      ((Fmt.ofCode o.fmt).getD .fp32).width))) else r.1) →
    (∀ i, i < out.length → ∃ p, s.translate (o.dst + i) true = .ok p) →
    ∃ (m : Mover) (u : State), exec (.sldColl q h o) s = .next (s.settle ((s.engaged q ⟨h, .sldColl o⟩ m u).worked (s.holder q)).kick) ∧ u.mem = (s.virtWrite o.dst out).1.mem ∧
      u = { s with mem := u.mem, memBad := u.memBad, memStacks := u.memStacks, regs := r.2.2.regs }

/-- A command that needs a credit or a pass does not start without it (R17, R63, R259): XFER and NWRITE wait with Q_WAIT reason 2 and their channel, PP_BROWS with reason 2 and the first channel of its back
end that lacks a credit, PUB with reason 9 and its channel; the queue's record changes in nothing else, and nothing else changes but for what else was able to go on. -/
def Obligations.CommandsWaitForCreditOrPass : Prop :=
  ∀ (q : QueueId) (h : Header) (s : State), s.boot.inReset = false → s.live q = true → s.switchingOn q.unit = false → s.waitMet q h = true →
    (∀ o : XferOps, s.fetch q = some ⟨h, .xfer o⟩ → (s.chan o.channel).canSend = false →
      exec (.xfer q h o) s = .next (s.settle (s.setQueue q { s.queue q with wait := ⟨2, 0, false, o.channel⟩ }).kick)) ∧
    (∀ o : NWriteOps, s.fetch q = some ⟨h, .nWrite o⟩ → (s.chan o.channel).canSend = false →
      exec (.nWrite q h o) s = .next (s.settle (s.setQueue q { s.queue q with wait := ⟨2, 0, false, o.channel⟩ }).kick)) ∧
    (∀ (o : BRowsOps) (i : Nat), s.fetch q = some ⟨h, .ppBRows o⟩ → (s.backChans o.camera).find? (fun i => !(s.chan i).canSend) = some i →
      exec (.ppBRows q h o) s = .next (s.settle (s.setQueue q { s.queue q with wait := ⟨2, 0, false, i⟩ }).kick)) ∧
    (∀ o : PubOps, s.fetch q = some ⟨h, .pub o⟩ → (s.chan o.channel).passes ≤ (s.chan o.channel).taken →
      exec (.pub q h o) s = .next (s.setQueue q { s.queue q with wait := ⟨9, 0, false, o.channel⟩ }))

/-- SCTL_WRITE and SCTL_CCC go on their bus with their target, register, code and data (R189, R190): whether the last attempt ended in a NACK is a free value of the bus, which the command keeps until it
completes; nothing else changes. SCTL_READ goes on its bus likewise and the LEN bytes that its target returns are free values: with an acknowledgement they stand at DEST in stack memory, where it can be
written; after a NACK nothing is written. -/
def Obligations.BusCommandsTakeTheirOutcome : Prop :=
  (∀ (q : QueueId) (h : Header) (s : State) (i : Instr) (c : Command), (∃ o, i = .sctlWrite q h o ∧ c = ⟨h, .sctlWrite o⟩) ∨ (∃ o, i = .sctlCcc q h o ∧ c = ⟨h, .sctlCcc o⟩) →
    s.starts q c = true → exec i s = .next { s with
      free := s.free + 1
      bus := s.bus.setIfInBounds (unitIndex q.unit) (some c.body)
      queues := put QState.start s.queues (queueKey q)
        ((s.queue q).moved c s.now (fun e => { e with worked := true, mover := { Mover.idle with bad := Config.free s.free % 2 == 1 } })) }) ∧
  ∀ (q : QueueId) (h : Header) (o : SctlOps) (s v : State) (bs : List Byte), s.starts q ⟨h, .sctlRead o⟩ = true → o.len ≤ 16 →
    bs = (List.range o.len).map (fun i => BitVec.ofNat 8 (Config.free (s.free + 1 + i))) →
    v = { s with free := s.free + 1 + o.len, bus := s.bus.setIfInBounds (unitIndex q.unit) (some (.sctlRead o)) } →
    (Config.free s.free % 2 = 1 → exec (.sctlRead q h o) s =
      .next (s.settle ((s.engaged q ⟨h, .sctlRead o⟩ { Mover.idle with bad := true, buf := bs } v).worked (s.holder q)).kick)) ∧
    (Config.free s.free % 2 = 0 → (∀ i, i < o.len → ∃ p, s.translate (o.dest + i) true = .ok p) →
      ∃ (m : Mover) (u : State), exec (.sctlRead q h o) s = .next (s.settle ((s.engaged q ⟨h, .sctlRead o⟩ m u).worked (s.holder q)).kick) ∧ u.mem = (s.virtWrite o.dest bs).1.mem ∧
        u = { v with mem := u.mem, memBad := u.memBad, memStacks := u.memStacks })

/-- INV_RECORD adds the next record of the chain (R315): its number is one more, its hash is over the previous hash and its 96 bytes, it is kept behind the last 16,383 before it, its input's gap is
cleared, and it stands in its slot of the record ring. -/
def Obligations.InvarRecordsExtendTheChain : Prop :=
  ∀ (q : QueueId) (h : Header) (o : InvRecordOps) (s : State) (i : InvInput) (b : List Byte), s.starts q ⟨h, .invRecord o⟩ = true →
    i = (look none s.inv.inputs o.channel).getD ⟨0, 0, 0, 0, false⟩ →
    b = recordBody (s.inv.seq + 1) o.tick 1 (s.recordFlags i.marks i.gap (s.cores[sealed].poisoned o.line)) i.digest i.frame i.epoch o.channel (s.cores[sealed].bytes (64 * o.line) 64) →
    ∃ t, exec (.invRecord q h o) s = .next t ∧ t.inv.seq = s.inv.seq + 1 ∧ t.inv.hash = sha384 (if s.inv.seq = 0 then b else s.inv.hash ++ b) ∧
      t.inv.records = (s.inv.records ++ [b ++ t.inv.hash.take 32]).drop (s.inv.records.length - 16383) ∧
      t.inv.inputs = put none s.inv.inputs o.channel (some { i with gap := false }) ∧ t.inv.legal = s.inv.legal ∧ t.inv.running = s.inv.running ∧
      t.queues = (s.past q ⟨h, .invRecord o⟩).queues ∧ t.chans = s.chans ∧ t.mem = s.mem ∧ t.otp = s.otp ∧ t.job = s.job ∧
      (∀ l, s.inv.legal = some l → 0 < l.recordPages → Memory.wf s.window = true →
        let slot := l.recordPage * 4096 + s.inv.seq % (32 * l.recordPages) * 128
        t.winBytes slot (b ++ t.inv.hash.take 32).length = b ++ t.inv.hash.take 32 ∧ Memory.wf t.window = true ∧
        ∀ a, a < slot ∨ slot + (b ++ t.inv.hash.take 32).length ≤ a → look (0 : Byte) t.window a = look (0 : Byte) s.window a)

/-- INV_INDICATE sends LEN bytes of sealed SRAM as a frame of the legal UART, a CAL_RESULT while the seal switch is in calibration position and a RESULT otherwise; three repeats remain until an ACK
(R318). -/
def Obligations.IndicationsGoOut : Prop :=
  ∀ (q : QueueId) (h : Header) (o : InvIndicateOps) (s : State) (f : List Byte), s.starts q ⟨h, .invIndicate o⟩ = true →
    f = uartFrame (if s.inv.cal then 0x11 else 0x10) (s.cores[sealed].bytes (64 * o.line) o.len) →
    ∃ t, exec (.invIndicate q h o) s = .next t ∧ t.inv = { s.inv with last := f, acked := false, retries := 3, out := f } ∧
      t.queues = (s.past q ⟨h, .invIndicate o⟩).queues ∧ t.window = s.window ∧ t.chans = s.chans ∧ t.mem = s.mem ∧ t.otp = s.otp ∧ t.job = s.job

/-- INV_REPLAY (R317): every record from the written sequence number on that sealed SRAM still holds stands in its slot of the record ring again, the last one of a slot where two share it, and then the
latest checkpoint in its slot; REPLAY_LOST is set where the number is no longer held. No record, chain or result changes, and nothing else: not a byte of the window outside those slots, no other register.
What sealed SRAM still holds is the last 16,384 records: INV_RECORD keeps its own behind the last 16,383 before it. -/
def Obligations.ReplayPublishesAgain : Prop :=
  (∀ (q : QueueId) (h : Header) (o : InvRecordOps) (s : State), s.starts q ⟨h, .invRecord o⟩ = true →
    ∃ (t : State) (r : List Byte), exec (.invRecord q h o) s = .next t ∧ t.inv.records = (s.inv.records ++ [r]).drop (s.inv.records.length - 16383)) ∧
  ∀ (w : Word) (s : State) (l : Legal) (n first ckpt : Nat), s.serving = true → s.inv.legal = some l → 0 < l.recordPages →
    n = w.toNat + s.inv.seq / 2 ^ 32 * 2 ^ 32 → first = s.inv.seq + 1 - s.inv.records.length → ckpt = l.ckptPage * 4096 + (s.inv.ckptSeq - 1) % l.ckptSlots * 36864 →
    canon (0 : Word) s.regs = true → Memory.wf s.window = true → (∀ b ∈ s.inv.records, b.length = 128) →
    ∀ slot : Nat → Nat, (∀ j, slot j = l.recordPage * 4096 + (first + j - 1) % (32 * l.recordPages) * 128) →
    ∃ t, exec (.invReplay w) s = .next t ∧ t = { s with window := t.window, winErr := t.winErr, regs := t.regs } ∧ Memory.wf t.window = true ∧
      (∀ k, t.reg k = if k = rInvStatus ∧ 0 < n ∧ n < first then setField (s.reg rInvStatus) 9 1 1 % 2 ^ 32 else s.reg k) ∧
      (s.inv.latest ≠ [] → l.ckptSlots ≠ 0 → t.winBytes ckpt s.inv.latest.length = s.inv.latest) ∧
      (∀ j b, n ≤ first + j → s.inv.records[j]? = some b → (∀ i, j < i → i < s.inv.records.length → slot i ≠ slot j) →
        s.inv.latest = [] ∨ l.ckptSlots = 0 ∨ slot j + 128 ≤ ckpt ∨ ckpt + s.inv.latest.length ≤ slot j → t.winBytes (slot j) 128 = b) ∧
      (∀ a, (∀ j, n ≤ first + j → j < s.inv.records.length → a < slot j ∨ slot j + 128 ≤ a) →
        s.inv.latest = [] ∨ l.ckptSlots = 0 ∨ a < ckpt ∨ ckpt + s.inv.latest.length ≤ a → look (0 : Byte) t.window a = look (0 : Byte) s.window a)

/-! ## Register writes, the host port and the management sideband -/

/-- Out of reset, a register write of the host takes effect while the device serves; during a trip it is discarded (R267), and so it is during a discovery (R252); before FIRMWARE_UP and while the management controller restarts it is held in
arrival order, up to 64 writes, and beyond them ignored and counted (R268, R372). -/
def Obligations.HostRegisterWritesTakeEffectOrWait : Prop :=
  ∀ (i : Instr) (off : Nat) (w : Word) (s : State), registerRow i = some (off, w) → s.boot.inReset = false →
    (s.serving = true → exec i s = .next (s.settle (s.applyReg off w))) ∧
    (s.trip ≠ none → exec i s = .next s) ∧
    (s.trip = none → s.host.discovery = true → ¬ (off % 32 = 0 ∧ w = 0x4353_4944) → exec i s = .next s) ∧
    (s.trip = none → s.host.discovery = false → s.mgmt.restart = true ∨ (s.boot.up = false ∧ s.boot.recovery = false) →
      (s.mgmt.held.length < 64 → exec i s = .next { s with mgmt := { s.mgmt with held := s.mgmt.held ++ [(off, w.toNat)] } }) ∧
      (64 ≤ s.mgmt.held.length → exec i s = .next (s.count rCmdIgnored 1)))

/-- What registers of the host take while the device serves, every other register staying: HOST_IRQ_STATUS clears the bits written as 1 (R265); MEM_PT_SEL shows the page-table entry of its page
(R143); a write of MEM_BW_SPLIT with shares that keep R140 stages them; PIN_FORCE sets the bits of pins that no stream claims, and counts CLAIM_IGNORED once where it has a bit of another (R228). SET_ARM sets SET_ARM of TIME_CTRL and writes its other fields, a PPS_WIDTH_MS of 0 counting as 1 (R218, R240); a write of
PWR_CAP holds WATTS_Q3 between 20 W and the envelope, and the power controller acts on it (R329); REGISTER_WRITE of a register whose fields are read and written sets those bits and no other (R10). -/
def Obligations.HostRegistersTakeTheirWrites : Prop :=
  ∀ (w : Word) (s : State), s.serving = true → canon (0 : Word) s.regs = true →
    (∃ t, exec (.hostIrqClear w) s = .next t ∧ t = { s with regs := t.regs } ∧ (∀ k, k ≠ rIrq → t.reg k = s.reg k) ∧
      ∀ j, (t.reg rIrq).testBit j = ((s.reg rIrq).testBit j && !w.getLsbD j)) ∧
    (∃ t, exec (.memPtSel w) s = .next t ∧ t = { s with regs := t.regs } ∧ t.reg 0x340C = w.toNat % 2 ^ 24 + 2 ^ 31 ∧
      t.reg 0x3410 = s.pte (w.toNat % 2 ^ 24) % 2 ^ 32 ∧ t.reg 0x3414 = s.pte (w.toNat % 2 ^ 24) / 2 ^ 32 ∧
      ∀ k, k ≠ 0x340C → k ≠ 0x3410 → k ≠ 0x3414 → t.reg k = s.reg k) ∧
    (∀ rd wr rm, w.toNat = rd + 16 * wr + 256 * rm → 1 ≤ rd → rd ≤ 7 → 1 ≤ wr → wr ≤ 7 → rm ≤ 6 → rd + wr + rm = 8 →
      ∃ t, exec (.memBwSplit w) s = .next t ∧ t = { s with regs := t.regs } ∧ t.reg 0x3400 = s.reg 0x3400 / 2 ^ 12 * 2 ^ 12 + w.toNat ∧
        ∀ k, k ≠ 0x3400 → t.reg k = s.reg k) ∧
    (∀ level, ∃ t, exec (.pinForce level w) s = .next t ∧ t = { s with regs := t.regs } ∧
      (∀ p, p < 32 → (t.reg (if level then 0x404C else 0x4048)).testBit p =
        if s.claimed resPin p then (s.reg (if level then 0x404C else 0x4048)).testBit p else w.getLsbD p) ∧
      t.reg rClaimIgnored = (if (List.range 32).any (fun p => s.claimed resPin p && w.getLsbD p) then bumped (s.reg rClaimIgnored) 1 else s.reg rClaimIgnored) ∧
      ∀ k, k ≠ rClaimIgnored → k ≠ (if level then 0x404C else 0x4048) → t.reg k = s.reg k) ∧
    (∃ t, exec (.setArm w) s = .next t ∧ t = { s with regs := t.regs } ∧ t.reg 0x4018 = 1 + max 1 (w.toNat / 2 ^ 8 % 2 ^ 8) * 2 ^ 8 + w.toNat / 2 ^ 16 % 2 * 2 ^ 16 ∧
      ∀ k, k ≠ 0x4018 → t.reg k = s.reg k) ∧
    exec (.pwrCapWrite w) s = .next (s.settle (s.setReg 0x7004
      (max 160 (min (8 * s.part.envelope) (w.toNat % 2 ^ 12)) + 2 ^ 12 * (w.toNat / 2 ^ 12 % 2 ^ 4) + 2 ^ 16 * (w.toNat / 2 ^ 16 % 2))).powerOn) ∧
    (∀ off n, (off, n) ∈ [(0x104, 6), (0x200C, 21), (0x3500, 3), (0x4014, 32), (0x401C, 32), (0x4054, 5), (0x5300, 25), (0x5340, 2), (0x6008, 3), (0x7008, 4), (0x7014, 10), (0x7018, 24), (0x701C, 1),
        (0x7024, 3), (0x7030, 3), (0x8000, 14), (0x8054, 3), (0x9080, 32)] → ∀ o, o / 4 * 4 = off →
      ∃ t, exec (.registerWrite o w) s = .next t ∧ t = { s with regs := t.regs } ∧
        (∀ j, (t.reg off).testBit j = if j < n then w.getLsbD j else (s.reg off).testBit j) ∧ ∀ k, k ≠ off → t.reg k = s.reg k)

/-- The channel snapshot (R28). A write of CHN_SEL stores the identifier and clears VALID; for a STALLED, KILLED, DONE or IDLE channel the entry is copied at once, for a RUNNING or DRAINING one the
copy is pending, and an undefined identifier reads as zeros with UNDEFINED. CHN_SNAP_COPY completes a pending copy from the channel selected last, and does nothing otherwise: a second write cancels the
first's. Nothing else changes. -/
def Obligations.ChannelSnapshotIsOneInstant : Prop :=
  (∀ (w : Word) (s : State) (n : Nat), s.serving = true → canon (0 : Word) s.regs = true → n = w.toNat % 2 ^ 16 →
    ∃ t, exec (.chnSel w) s = .next t ∧ t = { s with regs := t.regs, snap := t.snap } ∧ t.reg 0x1010 = n ∧ (∀ k, k ≠ 0x1010 → t.reg k = s.reg k) ∧
      (s.hasChan n = false → t.snap = ⟨false, true, true, List.replicate 16 0⟩) ∧
      (s.hasChan n = true → (s.chan n).ent.state ∈ [0, 2, 4, 5] → t.snap = ⟨false, true, false, (s.chan n).ent.words⟩) ∧
      (s.hasChan n = true → (s.chan n).ent.state ∉ [0, 2, 4, 5] → t.snap = ⟨true, false, false, s.snap.words⟩)) ∧
  (∀ s : State, s.boot.inReset = false →
    (s.snap.pending = true → exec .chnSnapCopy s = .next { s with snap := ⟨false, true, false, (s.chan (s.reg 0x1010)).ent.words⟩ }) ∧
    (s.snap.pending = false → exec .chnSnapCopy s = .next s))

/-- DEV_DB_RING (R70): COUNT jobs, 0 counting as 1, are added to the doorbell's counter modulo 2^16 and to SUBMITTED along 1, 2, …, 0xFFFF_FFFF, 1, and what waits for the doorbell goes on; a ring with
no stream, from order 3 of a full load on, or that would leave more than 32,767 jobs outstanding is ignored whole and sets DB_OVERFLOW. -/
def Obligations.DoorbellsRing : Prop :=
  ∀ (w : Word) (s : State) (n k sub : Nat), s.serving = true → n = w.toNat % 64 → k = max 1 (w.toNat / 256 % 256) → sub = look 0 s.job.submitted n →
    (s.stream ≠ none → s.pastDrain = false → seqDist (look 0 s.job.completed n) sub + k ≤ 32767 →
      exec (.dbRing w) s = .next (s.settle { s with job := { s.job with
        submitted := put 0 s.job.submitted n (if sub + k < 2 ^ 32 then sub + k else sub + k - (2 ^ 32 - 1))
        doorbell := put 0 s.job.doorbell n ((s.doorbell n + k) % 2 ^ 16) } }.kick)) ∧
    (s.stream = none ∨ s.pastDrain = true ∨ 32767 < seqDist (look 0 s.job.completed n) sub + k →
      exec (.dbRing w) s = .next (s.settle (s.setRegField 0x114 3 1 1).kick))

/-- Kill and rearm (R72, R73). KILL takes a RUNNING stream to KILLING and is ignored in every other state; KILL_COMPLETE ends every command in progress and takes it to KILLED, unless a reload waits for
it; REARM takes a KILLED stream to REARMING with COMPLETED at SUBMITTED, doorbells at zero and phase 0, and is ignored in every other state; REARM_COMPLETE takes it to RUNNING and starts its queues. -/
def Obligations.KillAndRearm : Prop :=
  ∀ (w : Word) (s : State),
    (∀ u, s.serving = true → s.job.state = .running → u = ({ s with job := { s.job with state := .killing } } : State).stopMain →
      exec (.kill w) s = .next (s.settle (u.domainBarriers.foldl (fun u b => u.reportKilled b) u))) ∧
    (s.serving = true → s.job.state ≠ .running → exec (.kill w) s = .next s) ∧
    (s.boot.inReset = false → s.job.state = .killing → s.loader.staged = none →
      exec .killComplete s = .next (s.settle ({ s.cutQueues with job := { s.cutQueues.job with state := .killed } } : State).powerOn)) ∧
    (s.boot.inReset = false → s.job.state ≠ .killing → s.loader.staged = none → exec .killComplete s = .next (s.settle s.powerOn)) ∧
    (s.serving = true → s.job.state = .killed → s.health.waiting = [] → ∃ u : State, exec (.rearm w) s = .next (s.settle u) ∧ u.job.state = .rearming ∧
      u.job.completed = s.job.submitted ∧ u.job.submitted = s.job.submitted ∧ u.job.doorbell = [] ∧ u.job.phase = 0 ∧ u.job.holding = false) ∧
    (s.serving = true → s.job.state ≠ .killed → exec (.rearm w) s = .next s) ∧
    (s.boot.inReset = false → s.job.state = .rearming →
      exec .rearmComplete s = .next (s.settle ({ s with job := { s.job with state := .running } } : State).powerOn.kick))

/-- Interleave and discovery (R249-R253) while the host port answers and nothing is tripped: IL_COMMIT starts the checks of the staged description; IL_COMMIT_DONE takes it, or reports the first check
that fails and keeps the one in effect; IDENTITY takes the identity by the same checks; DISCOVER_START opens a discovery with nothing captured; DISCOVER_END closes it, and IL_DERIVE_DONE reports what
the captures give and stages the map on OK. -/
def Obligations.InterleaveCommitsAndDiscovers : Prop :=
  ∀ s : State, s.boot.inReset = false → s.host.resetLow = false → s.trip = none →
    exec .ilCommit s = .next { s with host := { s.host with result := 0, bit := 0, detail := 0, committing := true } } ∧
    (∀ d, s.host.staged = d → s.host.committing = true →
      (∀ r b p, s.commitFault d = some (r, b, p) → exec .ilCommitDone s = .next { s with host := { s.host with result := r, bit := b, detail := p, committing := false } }) ∧
      (s.commitFault d = none → exec .ilCommitDone s = .next { s with host := { s.host with
        active := d, committed := true, result := 1, bit := 0, detail := 0, committing := false } })) ∧
    (s.host.committing = false → exec .ilCommitDone s = .next s) ∧
    (s.commitFault Interleave.identity = none → exec .identity s = .next { s with host := { s.host with
      active := Interleave.identity, committed := false, result := 1, bit := 0, detail := 0, committing := false } }) ∧
    exec .discoverStart s = .next { s with host := { s.host with
      discovery := true, result := 0, bit := 0, detail := 0, captures := [], overflow := false, malformed := false, deducing := false } } ∧
    (s.host.discovery = true → exec .discoverEnd s = .next { s with host := { s.host with discovery := false, deducing := true } }) ∧
    (∀ r b d, s.host.deducing = true → deduce s.host = (r, b, d) →
      exec .ilDeriveDone s = .next { s with host := { s.host with result := r, bit := b, detail := 0, staged := d, deducing := false } })

/-- The commands of the security engine: SUBMIT takes the staged token for its check, or refuses it with REASON 9 while the engine or the buffer is busy (R355); TOKEN_DONE ends the check with what
R355's list gives; COMMIT burns the ladder up to the running version and never down (R353); ATTEST_START takes a snapshot while the buffer is free, ATTEST_DONE places the signed report there and holds the
buffer, ATTEST_RELEASE and ATTEST_TIMEOUT free it (R357); the JTAG port takes its instruction, others acting as BYPASS (R358). -/
def Obligations.SecurityCommandsTakeEffect : Prop :=
  ∀ (w : Word) (s : State), s.serving = true →
    (∀ token, lookAll (0 : Byte) s.upload.data 0 s.upload.staged = token →
      (s.tokenBusy = false → exec (.tokenSubmit w) s = .next { s with
        upload := { s.upload with staged := 0 }, sec := { s.sec with token := some ⟨token, true⟩ } }) ∧
      (s.tokenBusy = true → exec (.tokenSubmit w) s = .next (s.settle (State.tokenResult { s with upload := { s.upload with staged := 0 } } token 9)))) ∧
    (∀ c, s.sec.token = some c → exec .tokenDone s = .next (s.settle (State.tokenResult { s with sec := { s.sec with token := none } } c.data (s.tokenReason c.data)))) ∧
    (s.sec.token = none → exec .tokenDone s = .next s) ∧
    (∃ t, exec (.rollbackCommit w) s = .next t ∧ t = { s with otp := t.otp } ∧ t.otp.ladder = max s.otp.ladder (min 64 s.boot.version) ∧ s.otp.keeps t.otp) ∧
    (s.bufferBusy = false → s.sec.snapshot = none → exec (.attestStart w) s = .next { s with sec := { s.sec with waiting := false, snapshot := some s.reportBody } }) ∧
    (∀ b, s.sec.snapshot = some b → s.bufferBusy = false → exec .attestDone s = .next { s with
      upload := ⟨putAll (0 : Byte) s.upload.data 0 (reportOf b), 0⟩, sec := { s.sec with snapshot := none, held := true, heldAt := s.now } }) ∧
    (s.sec.waiting = false → exec (.attestRelease w) s = .next { s with sec := { s.sec with held := false } } ∧
      exec .attestTimeout s = .next { s with sec := { s.sec with held := false } }) ∧
    (∀ code data, s.jtagTakes code ≠ 3 → exec (.jtagInstruction code data) s = .next { s with sec := { s.sec with jtag := s.jtagTakes code } }) ∧
    (∀ data, s.tokenBusy = false → exec (.jtagInstruction 3 data) s = .next { s with sec := { s.sec with jtag := 3, token := some ⟨data, false⟩ } })

/-- Every host burst is served, none stalls (R37). A read always answers 32 bytes (R254), zeros where it reaches nothing and where a discovery is open, and it changes no memory. A write to an unmapped
page counts UNMAPPED, one to a page without HOST_WRITE counts WRITE_DENIED, and neither changes the window (R255); a write to a HOST_WRITE page outside a drain stores the bytes that its mask enables and no
others, keeping the window's canonical form. -/
def Obligations.HostBurstsAreServed : Prop :=
  ∀ (a : Nat) (s : State), s.boot.inReset = false → s.host.resetLow = false →
    (∀ upset, ∃ t, exec (.hostReadBurst a upset) s = .next t ∧ t.host.out.length = 32 ∧ t.window = s.window ∧ t.mem = s.mem ∧
      (s.trip = none → s.target a = .unmapped → t.host.out = List.replicate 32 0) ∧
      (∀ m o, s.trip = none → s.host.discovery = false → s.target a = .window m o → t.host.out = s.winBytes (4096 * m.window + o) 32)) ∧
    (∀ data mask ecc, s.trip = none → s.host.discovery = false → ecc = 0 →
      (s.target a = .unmapped → exec (.hostWriteBurst a data mask ecc) s = .next ((s.trainedBy a).count 0x2020 1)) ∧
      (∀ m o, s.target a = .window m o → m.hostWrite = false → exec (.hostWriteBurst a data mask ecc) s = .next ((s.trainedBy a).count 0x2024 1)) ∧
      (∀ m o, s.target a = .window m o → m.hostWrite = true → s.loader.stage ≠ .draining → Memory.wf s.window = true →
        ∃ t, exec (.hostWriteBurst a data mask ecc) s = .next t ∧ t = { s.trainedBy a with window := t.window, winErr := t.winErr } ∧ Memory.wf t.window = true ∧
          (∀ j, j < 32 → look (0 : Byte) t.window (4096 * m.window + o + j) =
            if mask.testBit j then look (0 : Byte) s.window (4096 * m.window + o + j) else data.getD j 0) ∧
          ∀ x, x < 4096 * m.window + o ∨ 4096 * m.window + o + 32 ≤ x → look (0 : Byte) t.window x = look (0 : Byte) s.window x))

/-- Commands of the host channels (R244-R247): a mode register takes its value at the set point that FSP-WR names, except that a choice of 8B mode is ignored and counted and MR4 to MR8 are the device's
own; WRITE_X is ignored and counted; REFRESH changes nothing; self refresh starts and ends on its channel; HC_RESET returns every channel to its reset value and silences the port until it is released. -/
def Obligations.HostChannelCommands : Prop :=
  ∀ (n : Nat) (s : State), s.boot.inReset = false → s.host.resetLow = false →
    (∀ mr v, ¬ (mr = 3 ∧ field v 3 2 = 1) → mr < 4 ∨ 8 < mr → mr ≠ 16 → exec (.mrWrite n mr v) s = .next (s.onHost n (fun c =>
      { c with modes := put 0 c.modes (256 * (look 0 c.modes 16 % 4) + mr) v }))) ∧
    (∀ v, exec (.mrWrite n 16 v) s = .next (s.onHost n (fun c => { c with modes := put 0 c.modes 16 v, fsp := field v 2 2 }))) ∧
    (∀ mr v, 4 ≤ mr → mr ≤ 8 → exec (.mrWrite n mr v) s = .next s) ∧
    (∀ v, field v 3 2 = 1 → exec (.mrWrite n 3 v) s = .next (s.count rCmdIgnored 1)) ∧
    exec (.writeX n) s = .next (s.count rCmdIgnored 1) ∧ exec (.refresh n) s = .next s ∧
    (∀ deep, exec (.selfRefreshEntry n deep) s = .next (s.settle (s.selfRefreshIn n deep))) ∧
    exec (.selfRefreshExit n) s = .next (s.settle (s.selfRefreshOut n)) ∧
    exec .hcReset s = .next (s.settle ({ s with host := { s.host with chans := Vector.replicate 4 HostChan.idle, resetLow := true } } : State).powerOn) ∧
    exec .hcResetRelease { s with host := { s.host with resetLow := true } } = .next s

/-- The management sideband out of reset (R266): REG_WRITE with a right PEC and a multiple of 4 inside the register page is acknowledged and arrives as a register write, and is refused with a NACK
otherwise; REG_ADDR sets the pointer, REG_READ returns the four bytes there and steps it by 4, MGMT_STATE returns STATE and IL_STATUS, and a dynamic address is kept. -/
def Obligations.ManagementSidebandAnswers : Prop :=
  ∀ (off : Nat) (s : State), s.boot.inReset = false →
    (∀ w, off % 4 = 0 → off < 0x40000 → ∃ u : State, exec (.regWrite off w true) s = .next (s.settle u) ∧ u.mgmt.nack = false ∧ u.mgmt.out = [] ∧
      u = { s.arriveWrite off w with mgmt := u.mgmt }) ∧
    (∀ w pec, pec = false ∨ off % 4 ≠ 0 ∨ 0x40000 ≤ off → exec (.regWrite off w pec) s = .next { s with mgmt := { s.mgmt with nack := true, out := [] } }) ∧
    (off % 4 = 0 → off < 0x40000 → exec (.regAddr off true) s = .next { s with mgmt := { s.mgmt with pointer := off, nack := false, out := [] } }) ∧
    (∀ pec, pec = false ∨ off % 4 ≠ 0 ∨ 0x40000 ≤ off → exec (.regAddr off pec) s = .next { s with mgmt := { s.mgmt with nack := true, out := [] } }) ∧
    (off < 0x40000 → s.mgmt.pointer = off → ∃ u : State, exec .regRead s = .next (s.settle u) ∧ u.mgmt.nack = false ∧ u.mgmt.pointer = off + 4 ∧
      (s.trip = none → u.mgmt.out = leBytes 4 (s.regRead off).1) ∧ (∀ x, s.trip = some x → u.mgmt.out = leBytes 4 (s.tripWord x (off % 4096)))) ∧
    exec .mgmtState s = .next { s with mgmt := { s.mgmt with nack := false, out := leBytes 2 s.bootState ++ leBytes 2 s.ilStatus } } ∧
    exec (.dynamicAddressAssignment off) s = .next { s with mgmt := { s.mgmt with dynamic := some off } }

/-- Loads (R49-R51, R54, R55). START while nothing is loaded or loading takes its source: an upload is received, a flash or ROM image is read and checked; while BUSY it only stores its fields. ABORT
ends a load before order 3. A chunk goes to whoever waits for it, and is ignored while the buffer is held. DRAIN_COMPLETE and DRAIN_TIMEOUT do nothing without a drain; in one, channels that drain are
DONE and scrub and weights follow, or what remains is killed with DRAIN_FORCED. LOAD_FINISH starts the staged stream. -/
def Obligations.LoadsGoThroughTheirOrders : Prop :=
  ∀ (w : Word) (s : State),
    (s.serving = true → s.loadBusy = false → s.boot.recovery = false → ∃ u : State, u = { s with regs := u.regs, loader := u.loader } ∧
      exec (.loadStart w) s = .next (s.settle ((State.startLoad u (field (w ||| 1).toNat 2 2)).freeBuffer.afterPhase))) ∧
    (s.serving = true → s.loadBusy = true → (w.getLsbD 1) = false →
      exec (.loadStart w) s = .next (s.settle (((s.setRegField 0x080 2 2 (field (w ||| 1).toNat 2 2)).setRegField 0x080 8 8 (max 1 (field (w ||| 1).toNat 8 8))).freeBuffer.afterPhase))) ∧
    (s.serving = true → exec (.loadAbort w) s = .next (s.settle (State.abortLoad ((s.setRegField 0x080 2 2 (field ((w &&& 0xFFFF_FFFE) ||| 2).toNat 2 2)).setRegField 0x080 8 8
      (max 1 (field ((w &&& 0xFFFF_FFFE) ||| 2).toNat 8 8)))).freeBuffer)) ∧
    (s.serving = true → s.faults.request ≠ none ∨ s.sec.held = true → exec (.loadChunk w) s = .next (s.settle s.freeBuffer)) ∧
    (s.serving = true → s.faults.request = none → s.sec.held = false → s.boot.recovery = false → s.loader.stage = .receiving → 0 < w.toNat % 2 ^ 17 → w.toNat % 2 ^ 17 ≤ 65536 →
      exec (.loadChunk w) s = .next (s.settle (s.imageChunk (lookAll (0 : Byte) s.upload.data 0 (w.toNat % 2 ^ 17)) (w.toNat.testBit 30)).freeBuffer)) ∧
    (s.boot.inReset = false → s.loader.stage ≠ .draining → exec .drainComplete s = .next (s.settle s.freeBuffer) ∧ exec .drainTimeout s = .next (s.settle s.freeBuffer)) ∧
    (∀ st, s.boot.inReset = false → s.loader.stage = .draining → s.loader.staged = some st →
      exec .drainComplete s = .next (s.settle (State.scrubAndCopy { s with
        chans := s.chans.map (fun c => if c.ent.state = 3 then { c with ent := { c.ent with state := 5 } } else c) } st).freeBuffer) ∧
      exec .drainTimeout s = .next (s.settle (State.scrubAndCopy ((if s.stream.isSome then s.stopMain else s).setRegField 0x084 18 1 1) st).freeBuffer)) ∧
    (∀ st, s.boot.inReset = false → s.loader.stage = .starting → s.loader.staged = some st →
      exec .loadFinish s = .next (s.settle ((if st.reload then (if s.job.holding then s.swapReload st else s) else s.finishLoad st).powerOn.kick)))

/-- Debug reads of a scratchpad (R133): START stores the line and clears VALID and DENIED; with no stream, a killed one or an unlock that grants it, inside the scratchpad and with the line's bank group on,
the read waits; otherwise DENIED. A waiting read is served once no write holds its line: the data of the line as sixteen words, VALID, its ECC outcome, marks and step tag; the line does not change. -/
def Obligations.DebugReadsShowTheLine : Prop :=
  ∀ (n : Fin 6) (w : Word) (s : State) (line : Nat), canon (0 : Word) s.regs = true →
    (s.serving = true → line = w.toNat % 2 ^ 20 → ∃ t, exec (.spDebugRead n w) s = .next t ∧ t.reg (blkTc n + 0x340) = line ∧
      (∀ k : Fin 7, t.cores[k].lines = s.cores[k].lines ∧ t.cores[k].claims = s.cores[k].claims) ∧
      (s.debugAllowed = true → line < 782336 → s.cores[coreOf (.tc n)].on.getLsbD (groupOf line) = true →
        t.cores[coreOf (.tc n)].dbgWait = true ∧ t.reg (blkTc n + 0x344) = 0) ∧
      (s.debugAllowed = false ∨ 782336 ≤ line ∨ s.cores[coreOf (.tc n)].on.getLsbD (groupOf line) = false →
        t.cores[coreOf (.tc n)].dbgWait = false ∧ t.reg (blkTc n + 0x344) = 2)) ∧
    (s.boot.inReset = false → line = s.reg (blkTc n + 0x340) % 2 ^ 20 → s.cores[coreOf (.tc n)].dbgWait = true →
      (∀ x ∈ s.cores[coreOf (.tc n)].claims, x.line ≠ line) → ∃ t, exec (.spDebugReadDone n) s = .next t ∧ t.cores[coreOf (.tc n)].dbgWait = false ∧
      (∀ k : Fin 7, t.cores[k].lines = s.cores[k].lines) ∧
      (∀ i, i < 16 → t.reg (blkTc n + 0x380 + 4 * i) = (s.cores[coreOf (.tc n)].line line).bits.toNat / 2 ^ (32 * i) % 2 ^ 32) ∧
      t.reg (blkTc n + 0x344) = 1 + (if 0 < (s.cores[coreOf (.tc n)].line line).ces then 4 else 0) + (if 0 < (s.cores[coreOf (.tc n)].line line).ues then 8 else 0) +
        (if (s.cores[coreOf (.tc n)].line line).poison then 16 else 0) + (if (s.cores[coreOf (.tc n)].line line).collided then 32 else 0) +
        256 * (s.cores[coreOf (.tc n)].line line).tag.toNat)

/-! ## Events of pins, clocks and time -/

/-- Events of pins and clocks (R189, R191, R229-R231, R235, R236, R239-R241). An edge sets a pin's input level; at an armed pin without windows, in its selected direction, from its start on and at
least tCAP_DEAD after the edge before, it is recorded with its latency-corrected tick. A window that reaches its CLOSE tick is recorded and the next begins. A partly filled record token that is due
goes out, filled up. A generator's pulse begins at E_k and ends WIDTH later; after COUNT pulses it stops. A pulse ends at the level before it. PPS_OUT rises at a whole second, but in a thermal trip. A sensor clock switches
at a whole second. A calibration swaps a pin's lanes, or counts a failure. An in-band interrupt is held with its payload and address, and counts. -/
def Obligations.PinEventsTakeEffect : Prop :=
  ∀ (s : State) (pin : Nat), s.boot.inReset = false → pin < 32 →
    (∀ (instant : Nat) (rising : Bool) (u : State),
      u = { s with now := max s.now (instant / 256), time := { s.time with pins := s.time.pins.setIfInBounds pin { s.pin pin with input := rising } } } →
      (s.pinMode pin ≠ some 0 ∨ (s.pin pin).cap = none → exec (.eventPinEdge pin instant rising) s = .next (s.settle u.kick)) ∧
      (∀ (c : Capture) (t : Nat) (tail : Bool → List Byte), s.pinMode pin = some 0 → (s.pin pin).cap = some c → c.length = 0 →
        (∀ x, (s.pin pin).prev = some x → x + 64 ≤ t) → 16 < (instant + 128) % 256 → (instant + 128) % 256 < 240 →
        t = unsigned 64 (((instant + 128) / 256 : Nat) - s.pinOffset pin) → c.start ≤ t → c.edges.testBit (if rising then 0 else 1) = true →
        tail = (fun lost => leBytes 1 pin ++ leBytes 1 (b2n rising + 4 * b2n lost) ++ leBytes 2 (s.pin pin).seq) →
        exec (.eventPinEdge pin instant rising) s = .next (s.settle (({ u with
          time := { s.time with pins := s.time.pins.setIfInBounds pin { s.pin pin with
            input := rising, seq := ((s.pin pin).seq + 1) % 2 ^ 16, prev := some t, last := (t, leNat (tail (s.pin pin).lost)) } } }.storeRec pin t 0
          (fun lost => (leBytes 8 t ++ tail lost ++ leBytes 4 0xFFFF_FFFF, List.replicate 8 0 ++ tail lost ++ leBytes 4 0xFFFF_FFFF))).kick)))) ∧
    (∀ (c : Capture) (w : Window), (s.pin pin).cap = some c → (s.pin pin).win = w → c.has w.index = true →
      exec (.windowClose pin) s = .next (s.settle ((({ s with now := max s.now (c.start + w.index * c.period + c.length) }.emitWindow pin c w none).onPin pin
        (fun p => { p with win := Window.fresh (w.index + 1) })).kick))) ∧
    (∀ (port i n : Nat) (pad : List Byte), port < 4 → s.chanFrom 0x0C 0 (0x20 + port) = some i → (s.chan i).canSend = true →
      n = max 1 ((s.chan i).ent.tokenBytes / recSize port) → 0 < (s.recPort port).recs.length → (s.recPort port).recs.length < n →
      pad = (List.replicate (n - (s.recPort port).recs.length) (fillRec port)).flatten →
      exec (.recFlush port) s = .next (s.settle ((((({ s with time := { s.time with recPorts := s.time.recPorts.setIfInBounds port ⟨[], false⟩ } }).onChan i Chan.spend).send i
        ⟨true, true, false, false, false, false⟩ none s.now
        (slice ((s.recPort port).recs.flatMap (fun r : Rec => r.data) ++ pad) 0 (s.chan i).ent.tokenBytes)
        (slice ((s.recPort port).recs.flatMap (fun r : Rec => r.digested) ++ pad) 0 (s.chan i).ent.tokenBytes) (cShedDrop .time)).sendRecs 7 port).kick))) ∧
    (∀ (pg : Nat) (g : Gen), pg < 32 → s.gen pg = g → g.pin = pin →
      (g.high = false → g.running = true → exec (.pgEdge pg) s = .next { s with
        now := max s.now (g.edge g.k), trigs := put [] s.trigs pin (look [] s.trigs pin ++ [g.edge g.k])
        time := { s.time with
          pins := s.time.pins.setIfInBounds pin { s.pin pin with level := !(s.pin pin).level }
          gens := s.time.gens.setIfInBounds pg { g with high := true } } }) ∧
      (g.high = true → exec (.pgEdge pg) s = .next { s with
        now := max s.now (g.edge g.k + g.width)
        time := { s.time with
          pins := s.time.pins.setIfInBounds pin { s.pin pin with level := !(s.pin pin).level }
          gens := s.time.gens.setIfInBounds pg { g with high := false, k := g.k + 1, running := g.running && (g.count == 0 || decide (g.k + 1 < g.count)) } } })) ∧
    (∀ (l : Bool) (t : Nat), (s.pin pin).pulse = some (l, t) → exec (.pulseEnd pin) s = .next { s with
      now := max s.now t, time := { s.time with pins := s.time.pins.setIfInBounds pin { s.pin pin with level := l, pulse := none } } }) ∧
    (exec .ppsOutSecond s = .next { s with
      now := max s.now (ceilDiv s.now second * second)
      time := { s.time with ppsOut :=
        if s.time.valid = true ∧ (s.reg (rTime 0x018)).testBit 16 = true ∧ s.trip = none then ceilDiv s.now second * second + max 1 (s.regField (rTime 0x018) 8 8) * 16_000_000 else s.time.ppsOut } }) ∧
    (∀ (n : Fin 16) (f : Nat), s.mclk[n].next = some f → exec (.mclkSwitch n) s = .next { s with
      now := max s.now (ceilDiv s.now second * second), mclk := s.mclk.set n ⟨f, none⟩ }) ∧
    (exec (.pinCalibration pin true) s = .next { s.count (rTime 0x020) 1 with
      time := { s.time with pins := s.time.pins.setIfInBounds pin { s.pin pin with lane := !(s.pin pin).lane }, calLast := s.now } }) ∧
    (exec (.pinCalibration pin false) s = .next (s.count (rTime 0x040) 1)) ∧
    (∀ (n : Fin 8) (address payload : Nat), exec (.ibi n address payload) s = .next { s with
      ibi := s.ibi.set n ⟨payload % 256, address % 128, true, min 0xFFFF (s.ibi[n].count + 1)⟩ })

/-- Time sources and their messages (R214, R216, R218-R221, R224). A PPS edge is a whole second at a counter reading; TIME_SET_SEC armed is applied there: it makes the time valid under source 1 and on a
free-running master, measures the offset, and slews below TIME_STEP_LIMIT with a frequency correction that stays free. A message of another port or domain than PTP's is nothing; PTP's port takes its state; in
SLAVE state its time is valid, and a measured offset is corrected and locks it; leaving that state, or a PTP time before the epoch, loses the source. What is lost is gone; where the source stands on it the device holds
over with TIME raised, and a Solder parent is left for another; a reference that returns locks source 1 where PPS has edges. A default stream then moves along its chain (R56). A SYNC goes out on every working link with
the next SEQ; a SYNC from the parent is answered with a delay request, a request with its receive tick, and the parent's response measures and corrects the offset. A change of holdover is noted in Invar's chain (R315). -/
def Obligations.TimeSourcesAreFollowed : Prop :=
  ∀ (s : State), s.boot.inReset = false →
    (∀ (tick : Nat) (u v : State), u = { s with now := max s.now tick, time := { s.time with pps := some tick } } → v = u.chain →
      (v.regField (rTime 0x018) 0 1 = 0 → v.time.source ≠ 1 → exec (.ppsInEdge tick) s = .next (s.settle v.kick)) ∧
      (∀ (o : Int), v.regField (rTime 0x018) 0 1 = 1 → v.time.source ≠ 1 ∨ v.time.ref = false → o = ((tick : Int) - v.reg (rTime 0x014) * second) * 256 →
        canon (0 : Word) v.regs = true → o.natAbs < v.reg (rTime 0x01C) * 16000 * 256 →
        exec (.ppsInEdge tick) s = .next (s.settle ({ v.setRegField (rTime 0x018) 0 1 0 with
          free := s.free + 1
          time := { v.time with
            valid := v.time.valid || v.time.source == 1 || (v.time.source == 3 && v.time.master == v.device), offset := o, slew := o
            freq := ((Config.free s.free % (2 * freqLimit + 1) : Nat) : Int) - freqLimit } }.kick)))) ∧
    (∀ (port domain state : Nat) (asCapable : Bool) (offset : Option Int), port ≠ s.ptpPort ∨ domain ≠ field s.time.ptp.toNat 0 8 →
      exec (.ptpMessage port state asCapable offset domain) s = .next (s.settle s.kick)) ∧
    (∀ (port domain state : Nat) (asCapable : Bool) (offset : Option Int) (u v : State), port = s.ptpPort → domain = field s.time.ptp.toNat 0 8 →
      u = s.onEth port (fun p => { p with ptp := if state = 3 ∧ s.time.source ≠ 1 then 1 else state, asCapable := asCapable }) →
      v = State.chain { u with time := { s.time with early := match offset with | some o => decide ((s.now * 256 : Int) < o) | none => s.time.early } } →
      (v.slave = true → offset = none → exec (.ptpMessage port state asCapable offset domain) s =
        .next (s.settle ({ v with time := { v.time with valid := true } }.elect.kick))) ∧
      (∀ o : Int, v.slave = true → offset = some o → o.natAbs < v.reg (rTime 0x01C) * 16000 * 256 → exec (.ptpMessage port state asCapable offset domain) s =
        .next (s.settle (State.timeNote s { v with
          free := s.free + 1
          time := { v.time with
            valid := true, offset := o, slew := o, locked := true, holdover := false
            freq := ((Config.free s.free % (2 * freqLimit + 1) : Nat) : Int) - freqLimit } }.elect).kick)) ∧
      (v.slave = false → s.slave = true → exec (.ptpMessage port state asCapable offset domain) s =
        .next (s.settle (State.timeNote s (({ v with time := { v.time with locked := false, holdover := true } }.irq .time).elect).chain).kick)) ∧
      (v.slave = false → s.slave = false → exec (.ptpMessage port state asCapable offset domain) s = .next (s.settle v.kick))) ∧
    (exec .announceInterval s = .next { s with time := { s.time with ptp := look (0 : Word) s.regs (blkEth + 0x300) } }) ∧
    (∀ (what : TimeLoss) (u : State),
      what = .ptp ∧ u = s.onEth s.ptpPort (fun p => { p with ptp := 1 }) ∨ what = .reference ∧ u = { s with time := { s.time with ref := false } } ∨
        what = .pps ∧ u = { s with time := { s.time with pps := none } } →
      (s.time.source = (if what = .ptp then 0 else 1) → exec (.sourceLost what) s =
        .next (s.settle (State.timeNote s (({ u with time := { u.time with locked := false, holdover := true } }.irq .time).elect).chain))) ∧
      (s.time.source ≠ (if what = .ptp then 0 else 1) → exec (.sourceLost what) s = .next (s.settle u.chain))) ∧
    (s.time.parent = none → exec (.sourceLost .parent) s = .next (s.settle s.chain)) ∧
    (∀ (p : Nat) (u : State), s.time.parent = some p → u = (s.onTimePort p (fun x => { x with neigh := none })).elect →
      (s.time.source = 2 → u.time.parent = none → exec (.sourceLost .parent) s =
        .next (s.settle (State.timeNote s (({ u with time := { u.time with locked := false, holdover := true } }.irq .time).elect).chain))) ∧
      (s.time.source ≠ 2 ∨ u.time.parent ≠ none → exec (.sourceLost .parent) s = .next (s.settle u.chain))) ∧
    (∀ v : State, v = State.chain { s with time := { s.time with ref := true } } →
      exec .ref10mInReturn s = .next (s.settle (if v.time.source = 1 ∧ v.time.pps.isSome = true then
        State.timeNote s { v with time := { v.time with locked := true, holdover := false } }.elect else v))) ∧
    (∃ t, exec .syncPeriod s = .next t ∧ t = { s with free := t.free, ports := t.ports, time := { s.time with links := t.time.links } } ∧
      t.free = s.free + ((List.range 8).filter (fun n => (s.port n).up && !(s.port n).retraining)).length ∧
      ∀ n, n < 8 → if (s.port n).up = true ∧ (s.port n).retraining = false then
        t.timePort n = { s.timePort n with seq := ((s.timePort n).seq + 1) % 2 ^ 32 } ∧
        ∃ x, x / 256 = s.now ∧ t.port n = (s.port n).push ⟨9, 0, 0, (s.port n).neighbour, s.device, 0, 32, 0, s.timeMsg 1 (s.timePort n).seq x⟩
        else t.timePort n = s.timePort n ∧ t.port n = s.port n) ∧
    (∀ (m : TimeRx) (u v : State), (s.receive m.rx).1 = true → u = (s.receive m.rx).2 → v = u.hearTime m m.rx.pkt.payload →
      (v.time.parent ≠ some m.rx.port → exec (.sync m) s = .next (s.settle (v.onTimePort m.rx.port (fun p => { p with t1 := tickOf m.rx.pkt.payload, t2 := m.tick })))) ∧
      (v.time.parent = some m.rx.port → ∃ x, x / 256 = s.now ∧ exec (.sync m) s = .next (s.settle ((({ v with free := s.free + 1 }.onTimePort m.rx.port
        (fun p => { p with t1 := tickOf m.rx.pkt.payload, t2 := m.tick })).onTimePort m.rx.port (fun p => { p with t3 := x })).sendTime m.rx.port 2 x))) ∧
      (exec (.delayReq m) s = .next (s.settle (v.sendTime m.rx.port 3 m.tick))) ∧
      (∀ (o : Int) (w : State), v.time.parent = some m.rx.port →
        o = ((((v.timePort m.rx.port).t2 : Int) - (v.timePort m.rx.port).t1) - ((tickOf m.rx.pkt.payload : Int) - (v.timePort m.rx.port).t3)) / 2 - (v.timePort m.rx.port).asym →
        o.natAbs < v.reg (rTime 0x01C) * 16000 * 256 →
        w = { v with free := s.free + 1, time := { v.time with offset := o, slew := o, freq := ((Config.free s.free % (2 * freqLimit + 1) : Nat) : Int) - freqLimit } } →
        exec (.delayResp m) s = .next (s.settle (if s.time.source = 2 then
          State.timeNote s { w with time := { w.time with locked := true, holdover := false } }.elect
          else if s.time.source = 3 then State.timeNote s { w with time := { w.time with holdover := false } }.elect else w).kick)))

/-! ## Events of cameras and of Solder ports -/

/-- Packets of a camera whose stream runs and whose geometry is configured (R174-R178, R193). A header with an uncorrectable error discards its packet and counts. A packet before the port's configuration
counts ORPHAN, whether or not its stream runs. A frame start of exposure 0 closes an
exposure still open and opens a frame; a line of the configured type on an open exposure's virtual channel is taken at that exposure; a frame end closes the exposure; an exposure that receives
nothing for FRAME_TIMEOUT_US closes then. A packet on a virtual channel that no exposure uses counts ORPHAN. The oldest memory-fed frame of a pipeline starts with the lines of its ring slot. -/
def Obligations.CameraPacketsBuildFrames : Prop :=
  ∀ (s : State) (p : CamPkt) (u : State), s.boot.inReset = false → u = { s with now := max s.now p.tick } →
    (p.header = 2 → ∀ i ∈ [Instr.frameStartPacket p, .longPacket p, .frameEndPacket p], exec i s = .next (s.settle (u.count (rCam p.cam 0x028) 1).kick)) ∧
    (p.header ≠ 2 → s.boot.isDefault = false → (s.cam p.cam).configured = false → ∀ i ∈ [Instr.frameStartPacket p, .longPacket p, .frameEndPacket p],
      exec i s = .next (s.settle (u.count (rCam p.cam 0x030) 1).kick)) ∧
    (p.header ≠ 2 → s.camLive p.cam = true → s.boot.isDefault = false → (s.cam p.cam).configured = true → p.vc < 16 →
      ((s.cam p.cam).exposureOf p.vc = none → ∀ i ∈ [Instr.frameStartPacket p, .frameEndPacket p], exec i s = .next (s.settle (u.count (rCam p.cam 0x030) 1).kick)) ∧
      ((s.cam p.cam).exposureOf p.vc = none → isRawType p.dt = true → exec (.longPacket p) s = .next (s.settle (u.count (rCam p.cam 0x030) 1).kick)) ∧
      ((s.cam p.cam).exposureOf p.vc = some 0 → s.loader.inputsHeld = false →
        ((s.cam p.cam).openAt 0 = none →
          exec (.frameStartPacket p) s = .next (s.settle ((u.openFrame p.cam p.number p.tick (b2n (p.header == 1))).runCam p.cam).kick)) ∧
        (∀ i v, (s.cam p.cam).openAt 0 = some i → v = u.closeExp p.cam i 0 (s.camTick p.cam p.tick) true false →
          exec (.frameStartPacket p) s = .next (s.settle ((v.openFrame p.cam p.number p.tick (b2n (p.header == 1))).runCam p.cam).kick))) ∧
      (∀ e i, (s.cam p.cam).exposureOf p.vc = some e → (s.cam p.cam).openAt e = some i →
        (isRawType p.dt = true → p.dt = (s.cam p.cam).port 1 1 →
          exec (.longPacket p) s = .next (s.settle ((u.takeLine p.cam i e p.tick p.data p.crcOk (b2n (p.header == 1))).runCam p.cam).kick)) ∧
        exec (.frameEndPacket p) s = .next (s.settle (((u.onCam p.cam (fun k => { k with
          frames := k.frames.modify i (fun f => { f with ecc := f.ecc + b2n (p.header == 1) }) })).closeExp p.cam i e (s.camTick p.cam p.tick) false false).runCam p.cam).kick))) ∧
    (∀ (e i t : Nat) (f : Frame) (x : Exposure), (s.cam p.cam).openAt e = some i → (s.cam p.cam).frames[i]? = some f → f.exps[e]? = some x →
      t = x.last + (s.cam p.cam).port 0x1C 4 * 16000 →
      exec (.frameTimeout p.cam e) s = .next (s.settle ((({ s with now := max s.now t }).closeExp p.cam i e (s.camTick p.cam t) false true).runCam p.cam).kick)) ∧
    (∀ (n c : Nat) (f : Frame) (v : State), s.job.state = .running → s.health.target = none → (s.pipe n).fed = none → s.oldestFed n = some (c, f) →
      v = s.onCam c (fun k => { k with frames := k.frames.filter (fun g => !(g.slot == f.slot && g.closed)) }) →
      exec (.memoryFedFrame n) s = .next (s.settle (((v.loadLines c f).2.onPipe n (fun q => { q with fed := some (c, (v.loadLines c f).1) })).runPipe n).kick))

/-- Packets of a Solder port that works (R287, R291-R296, R298, R142). A packet with a bad CRC or SEQ is not taken: it is answered with a NACK and counts. One that is taken moves SEQ on, with an
acknowledgement every 32. Then: a whole DATA token for this device reaches its channel, one for another device goes onward; credits reach the channel's sender; a group's token goes to its
branches, or counts as an orphan off the tree; a branch's credits reach the sender's branch; an arrival below the tree is noted and a release releases; a collective takes its packet; a neighbour's
read is answered with the bytes, its write is done and answered; the answer to the oldest remote access lets its command go on. -/
def Obligations.SolderPacketsReachTheirPlace : Prop :=
  ∀ (s : State) (r : Rx) (k : Packet), s.boot.inReset = false → r.port < 8 → r.pkt = k → (s.port r.port).up = true → (s.port r.port).retraining = false →
    (r.crcOk = false ∨ k.seq ≠ (s.port r.port).rxSeq →
      ∀ i ∈ [Instr.data r, .credit r, .mcastData r none, .mcastCredit r, .solderBarrier r, .coll r, .memReq r, .memResp r],
        exec i s = .next (s.settle (({ s with ports := s.ports.setIfInBounds r.port { s.port r.port with ctl := some (true, (s.port r.port).rxSeq) } }).count (cSldCrc r.port) 1).kick)) ∧
    (∀ (n : Nat) (u : State), r.crcOk = true → k.seq = (s.port r.port).rxSeq → n = ((s.port r.port).rxSeq + 1) % 256 →
      u = { s with ports := s.ports.setIfInBounds r.port (if (s.port r.port).unacked + 1 = 32 then { s.port r.port with rxSeq := n, unacked := 0, ctl := some (false, n) }
        else { s.port r.port with rxSeq := n, unacked := (s.port r.port).unacked + 1 }) } →
      (k.dest ≠ s.device →
        exec (.data r) s = .next (s.settle (u.sendPacket k (some r.port)).kick) ∧ exec (.credit r) s = .next (s.settle (u.sendPacket k (some r.port)).kick) ∧
        exec (.coll r) s = .next (s.settle (u.sendPacket k (some r.port)).kick) ∧ exec (.solderBarrier r) s = .next (s.settle (u.sendPacket k (some r.port)).afterPhase.kick)) ∧
      (k.dest = s.device →
        (s.hasChan k.channel = true → (s.chan k.channel).ent.kind = 0x08 → (s.chan k.channel).ent.multicast = false →
          field (s.chan k.channel).ent.source 22 10 = k.src → k.src ≠ s.device → k.marks.testBit 6 = true → k.marks.testBit 7 = true →
          exec (.data r) s = .next (s.settle ((u.onChan k.channel (fun c => { c with rx := none })).takeIn k.channel (tokenOf k.marks k.payload)).kick)) ∧
        (s.hasChan k.channel = true → (s.chan k.channel).ent.kind = 0x08 → (s.chan k.channel).ent.shed = false →
          field (s.chan k.channel).ent.source 22 10 = s.device → field (s.chan k.channel).ent.dest 22 10 = k.src →
          exec (.credit r) s = .next (s.settle (u.onChan k.channel (fun c => c.credit 0 k.len)).kick)) ∧
        (leAt k.payload 0 1 = 0 → s.isKilled = false →
          exec (.solderBarrier r) s = .next (s.settle ((u.setArrivals k.channel { s.arrivals k.channel with
            kids := if (s.arrivals k.channel).kids.contains k.src then (s.arrivals k.channel).kids else (s.arrivals k.channel).kids ++ [k.src] }).gatherDomain k.channel).afterPhase.kick)) ∧
        ((leAt k.payload 0 1).testBit 0 = true →
          exec (.solderBarrier r) s = .next (s.settle ((u.releaseDomain k.channel ((leAt k.payload 0 1).testBit 1)).reportKilled k.channel).afterPhase.kick)) ∧
        (exec (.coll r) s = .next (s.settle (u.collPacket k).kick)) ∧
        (s.coll k.channel = none → leAt k.payload 0 1 ≠ 1 → exec (.coll r) s = .next (s.settle (State.kick { u with early := s.early ++ [k] }))) ∧
        (portNeighbour s.dims s.device r.port = k.src → s.regField (blkMem + 0x400) 24 4 ≠ 0 → ∀ (va p : Nat), va = leAt k.payload 0 8 →
          (leAt k.payload 10 1 = 0 → s.translate va false = .ok p →
            exec (.memReq r) s = .next (s.settle ((u.stackRead p (leAt k.payload 8 2)).2.2.answerMem k (s.memBytes p (leAt k.payload 8 2)) (s.memPoisoned p (leAt k.payload 8 2)) false).kick)) ∧
          (leAt k.payload 10 1 = 1 → s.translate va true = .ok p →
            exec (.memReq r) s = .next (s.settle ((u.stackWrite p (k.payload.drop 11)).answerMem k [] false false).kick)))) ∧
      (s.relayEntry k.dest r.port = none → ∀ policy, exec (.mcastData r policy) s = .next (s.settle (u.count rSldOrphan 1).kick)) ∧
      (∀ (policy : Option Nat) (e : Relay) (f : RelayFlow) (v : State), s.relayEntry k.dest r.port = some e → u.flowFor k r.port policy e = (f, v) →
        k.marks.testBit 6 = true → k.marks.testBit 7 = true →
        exec (.mcastData r policy) s = .next (s.settle (v.relayToken { f with asm := [], marks := 0 } (tokenOf (k.marks % 64) k.payload)).kick)) ∧
      (∀ b, s.hasChan k.channel = true → (s.chan k.channel).ent.multicast = true → (s.chan k.channel).ent.shed = false → (s.chan k.channel).ent.dest % 4096 = k.dest →
        field (s.chan k.channel).ent.source 22 10 = s.device → branchOf (s.branches (s.chan k.channel).ent) r.port = some b →
        exec (.mcastCredit r) s = .next (s.settle (u.onChan k.channel (fun c => c.credit b k.len)).kick)) ∧
      (∀ (q : RemoteReq) (e : InProg) (v : State), s.remotes.find? (fun x => x.device == k.src) = some q → s.prog q.holder = some e →
        v = ({ u with remotes := s.remotes.erase q }).unpark q.holder k.channel → k.channel ≠ 0xFFFF → k.marks.testBit 4 = false ∨ k.marks.testBit 2 = false →
        exec (.memResp r) s = .next (s.settle ((if q.write then v.putElem q.holder (e.mover.held.getD []) (k.marks.testBit 4)
          else v.gotElem q.holder k.payload (k.marks.testBit 4) false).goOn q.holder e.cmd).kick)))

/-! ## Events of links, lanes, stacks, Ethernet ports and fills -/

/-- Links, lanes and stacks (R287, R288, R223, R274-R278, R280, R281). An acknowledgement frees the replay buffer up to SEQ, a NACK replays from it and counts, and the eighth NACK of one packet starts a
retraining, which pauses time messages. The end of a retraining takes the new asymmetry, sends what waited and tries routes again. A lane that degrades leaves use for a parked lane, or for the spare;
one that has trained becomes the spare, or returns where lanes are missing, or is retired with SPARES and a new asymmetry. A slot of a stack link with a right check word carries the next line of the link's oldest
read command, and ages its writes: with the fourth slot without a nack a write is complete. A slot of data with a wrong check word is counted and its command reissued behind the others, up to three times; the fourth
time its link leaves rotation and trains. A link that has trained returns to rotation or becomes the spare; one that fails is retired. A row with a first corrected error, met by an access or by the scrub, is
remembered; with a second one, or an uncorrectable one, which poisons its line, the scrub moves it to a spare row, and a warning level crossed raises SPARES; a scrub that finds nothing clears it. -/
def Obligations.LinksAndLanesRecover : Prop :=
  ∀ (s : State), s.boot.inReset = false →
    (∀ (n seq : Nat) (p : Port), n < 8 → s.port n = p → p.waiting = [] →
      (∀ rest, afterSeq seq p.tx = rest → (∀ a b, p.tx.head? = some a → rest.head? = some b → a.seq ≠ b.seq) →
        exec (.linkCtrl n false seq none) s = .next (s.settle ({ s with ports := s.ports.setIfInBounds n { p with tx := rest, fails := 0 } }.kick))) ∧
      (∀ a ts, p.tx = a :: ts → a.seq = seq → p.fails < 7 →
        exec (.linkCtrl n true seq none) s = .next (s.settle (({ s with ports := s.ports.setIfInBounds n { p with fails := p.fails + 1 } }.count (cSldReplay n) 1).kick))) ∧
      (∀ a ts, p.tx = a :: ts → a.seq = seq → p.fails = 7 →
        exec (.linkCtrl n true seq none) s = .next (s.settle (((({ s with ports := s.ports.setIfInBounds n { p with retraining := true, fails := 0 } }.count (cSldReplay n) 1).count
          (cSldRetrain n) 1).timePause n).kick)))) ∧
    (∀ (n : Nat) (asym : Int), n < 8 → exec (.portRetrainDone n asym) s = .next (s.settle (({ s with
      ports := s.ports.setIfInBounds n (Port.flush 128 { s.port n with retraining := false })
      time := { s.time with links := s.time.links.setIfInBounds n { s.timePort n with asym := asym } } }.reroute).kick))) ∧
    (∀ (n lane : Nat) (p : Port) (b rest : BitVec 5), n < 8 → s.port n = p → b = laneBit lane → rest = p.inUse &&& ~~~b →
      (p.inUse.getLsbD lane = true → p.parked ≠ 0 → exec (.laneDegrade n lane) s = .next { s with ports := s.ports.setIfInBounds n { p with
        inUse := rest ||| lowLane p.parked, parked := p.parked &&& ~~~lowLane p.parked, training := p.training ||| b } }) ∧
      (p.inUse.getLsbD lane = true → p.parked = 0 → p.spare ≠ 0 → exec (.laneDegrade n lane) s = .next { s with ports := s.ports.setIfInBounds n { p with
        inUse := rest ||| lowLane p.spare, spare := p.spare &&& ~~~lowLane p.spare, training := p.training ||| b } }) ∧
      (p.inUse.getLsbD lane = true → p.parked = 0 → p.spare = 0 → rest ≠ 0 → exec (.laneDegrade n lane) s = .next { s with ports := s.ports.setIfInBounds n { p with
        inUse := rest, training := p.training ||| b } }) ∧
      (∀ asym : Int, p.training.getLsbD lane = true →
        (4 ≤ ((List.range 5).filter (fun i => p.inUse.getLsbD i || p.parked.getLsbD i)).length →
          exec (.laneRetrainDone n lane true asym) s = .next (s.settle (({ s with ports := s.ports.setIfInBounds n { p with
            training := p.training &&& ~~~b, spare := p.spare ||| b } }.reroute).recheck))) ∧
        (((List.range 5).filter (fun i => p.inUse.getLsbD i || p.parked.getLsbD i)).length < 4 →
          exec (.laneRetrainDone n lane true asym) s = .next (s.settle (({ s with ports := s.ports.setIfInBounds n { p with
            training := p.training &&& ~~~b, inUse := p.inUse ||| b } }.reroute).recheck))) ∧
        exec (.laneRetrainDone n lane false asym) s = .next (s.settle ((((({ s with ports := s.ports.setIfInBounds n { p with
          training := p.training &&& ~~~b, retired := p.retired ||| b } }.count (cSldLaneSwitch n) 1).irq .spares).timePause n).onTimePort n (fun x => { x with asym := asym })).recheck)))) ∧
    (∀ (r : StackRx) (k : Stack) (w : State) (aged : List StackCmd → List StackCmd), r.stack < 8 → r.stack < s.part.memStacks → s.stack r.stack = k → k.rotation.getLsbD r.link = true → k.retired = false →
      w = s.count (cStk r.stack 0x524) (b2n r.waited) →
      aged = (fun cs => cs.filterMap (fun c => if c.link != r.link || !c.write then some c else if 4 ≤ c.got + 1 then none else some { c with got := c.got + 1 })) →
      (r.data = none → slotCrcOk r = true → slotNack r = false →
        exec (.stackReadReturn r) s = .next { w with memStacks := s.memStacks.setIfInBounds r.stack (({ k with cmds := aged k.cmds } : Stack).pump k.queued.length) }) ∧
      (∀ (i : Nat) (c : StackCmd) (rest : List StackCmd), r.data ≠ none → k.headRead r.link = some i → k.cmds[i]? = some c →
        rest = (if c.lines ≤ c.got + 1 then k.cmds.eraseIdx i else k.cmds.set i { c with got := c.got + 1 }) →
        (slotCrcOk r = false → c.fails < 3 → exec (.stackReadReturn r) s = .next { (w.count (cStk r.stack 0x518) 1).count (cStk r.stack 0x51C) 1 with
          memStacks := s.memStacks.setIfInBounds r.stack (({ k with cmds := k.cmds.eraseIdx i ++ [{ c with fails := c.fails + 1, got := 0 }] } : Stack).pump k.queued.length) }) ∧
        (∀ l : Stack, slotCrcOk r = false → 3 ≤ c.fails → l = k.leave r.link s.now → l.recentLeaves r.link s.now < 3 → l.rotation ≠ 0 →
          exec (.stackReadReturn r) s = .next { (w.count (cStk r.stack 0x518) 1).count (cStk r.stack 0x520) 1 with
            memStacks := s.memStacks.setIfInBounds r.stack (({ l with training := l.training ||| linkBit r.link } : Stack).pump l.queued.length) }) ∧
        (slotCrcOk r = true → slotNack r = false →
          (slotUe r = false → slotCe r = false → exec (.stackReadReturn r) s =
            .next { w with memStacks := s.memStacks.setIfInBounds r.stack (({ k with cmds := aged rest } : Stack).pump k.queued.length) }) ∧
          (∀ key, slotUe r = false → slotCe r = true → key = (16 * c.chan + r.bank) * 32768 + r.row → look false k.suspect key = false → exec (.stackReadReturn r) s =
            .next { w.count (cStk r.stack 0x510) 1 with
              memStacks := s.memStacks.setIfInBounds r.stack (({ k with cmds := aged rest, suspect := put false k.suspect key true } : Stack).pump k.queued.length) })))) ∧
    (∀ (n link : Nat) (k l : Stack), n < 8 → s.stack n = k → k.training.getLsbD link = true → l = { k with training := k.training &&& ~~~linkBit link } →
      exec (.linkRetrainDone n link true) s = .next { s with
        memStacks := s.memStacks.setIfInBounds n (if links (k.rotation ||| k.parked) < 8
          then ({ l with rotation := k.rotation ||| linkBit link } : Stack).pump k.queued.length else { l with spare := k.spare ||| linkBit link }) } ∧
      exec (.linkRetrainDone n link false) s = .next (s.settle (s.retireLink n link))) ∧
    (∀ (n bank row line key : Nat) (k : Stack), n < 8 → n < s.part.memStacks → bank < 128 → s.stack n = k → key = bank * 32768 + row →
      (exec (.stackScrub n bank row 0 line) s = .next { s with memStacks := s.memStacks.setIfInBounds n { k with suspect := put false k.suspect key false } }) ∧
      (look false k.suspect key = false → exec (.stackScrub n bank row 1 line) s = .next { s.count (cStk n 0x510) 1 with
        memStacks := s.memStacks.setIfInBounds n { k with suspect := put false k.suspect key true } }) ∧
      (∀ (found : Nat) (o : Otp) (u : State), (found = 1 ∧ look false k.suspect key = true ∨ found = 2) → s.otp.rowsUsed n bank < 16 →
        o = { s.otp with stackRows := put 0 s.otp.stackRows (n * 128 + bank) (s.otp.rowsUsed n bank + 1) } →
        u = { s.count (cStk n (if found = 1 then 0x510 else 0x514)) 1 with
          otp := o
          memBad := if found = 1 then s.memBad else put false s.memBad ((n * 2 ^ 33 + stackOffset (bank / 16) line) / 64) true
          memStacks := s.memStacks.setIfInBounds n { k with suspect := put false k.suspect key false } } →
        exec (.stackScrub n bank row found line) s = .next (s.settle (if spareWarn (s.otp.minRows n).1 8 4 < spareWarn (o.minRows n).1 8 4 then u.irq .spares else u))))

/-- Ethernet ports, credits on this device, and fills (R304, R225, R17, R147-R150). A flow frame of another EtherType is nothing to the block; a segment of a token that has not ended waits for the
rest. The next entry's gates apply at the end of an interval, and a new list from its cycle's start; held frames may then leave. Credits on their way reach their sender. The oldest host fill is posted
with FILL_WANTED, and one that times out is refused: every fault on its page counts and its command goes on. A page resolved is filled, with zeros or with its neighbour's bytes, and valid, and what waited for it goes on. ETH_FLOW and ETH_GCL read their block
whole, and a gate list that keeps its rules waits for its cycle (R226, R302); ETH_SEND on a port without a gate list sends the frames of its channel's oldest token, regains its credit and is done
(R303). MEM_FILL_DONE takes the 4 KiB that the host has staged into the posted page: the next part of its page follows, or the page is valid and what waited for it goes on (R150). -/
def Obligations.FramesCreditsAndFillsArrive : Prop :=
  ∀ (s : State), s.boot.inReset = false →
    (∀ (port etherType : Nat) (data : List Byte), etherType ≠ 0x88B5 → exec (.flowFrameRx port etherType data) s = .next (s.settle s.kick)) ∧
    (∀ (port i : Nat) (data : List Byte) (e : Entry) (marks : Nat), port < 4 → i = leAt data 2 2 → e = (s.chan i).ent → leAt data 0 1 = 1 → s.hasChan i = true → e.kind = 0x09 →
      field e.source 22 10 = s.device → field e.source 8 14 = 0x900 + port → marks = leAt data 1 1 → marks.testBit 7 = false →
      (s.ethPort port).rx.find? (fun r => r.channel == i) = none →
      exec (.flowFrameRx port 0x88B5 data) s = .next (s.settle ({ s with eth := s.eth.setIfInBounds port { s.ethPort port with
        rx := (s.ethPort port).rx ++ [RxToken.mk i (leAt data 0x0C 4) (leAt data 8 4) (leAt data 6 2) (leAt data 0x18 8) (marks % 64) false [(leAt data 0x10 4, (data.drop 32).take (leAt data 0x14 2))]] } }.kick))) ∧
    (∀ (n i t : Nat) (g : GateList), n < 4 → (s.ethPort n).gcl = some g → t = (s.ethPort n).gateEnd → i = ((s.ethPort n).gate + 1) % max 1 g.entries.length →
      exec (.gateInterval n) s = .next (s.settle ((({ s with
        now := max s.now t
        eth := s.eth.setIfInBounds n { s.ethPort n with gate := i, gateEnd := t + nsTicks (g.entries.getD i (0, 0)).2 } }).ethFlush n).kick))) ∧
    (∀ (n t : Nat) (g : GateList), n < 4 → (s.ethPort n).next = some g → t = g.start s.now →
      exec (.gclCycleStart n) s = .next (s.settle ((({ s with
        now := max s.now t
        eth := s.eth.setIfInBounds n { s.ethPort n with gcl := some g, next := none, gate := 0, gateEnd := t + nsTicks (g.entries.getD 0 (0, 0)).2 } }).ethFlush n).kick))) ∧
    (∀ (i k count m : Nat), m = min count (s.chan i).flying → m ≠ 0 → (s.chan i).ent.shed = false →
      exec (.creditArrival i k count) s = .next (s.settle (((s.onChan i (fun c => { c with flying := c.flying - m })).onChan i (fun c => c.credit k m)).kick))) ∧
    (∀ f : Fill, s.faults.request = none → s.bufferTaken = false → s.hostFill = some f →
      exec .hostFillRequest s = .next ({ s with faults := { s.faults with request := some (f.key + f.part) }, upload := { s.upload with staged := 0 } }.irq .fillWanted)) ∧
    (∀ (p : Nat) (f : Fill), s.faults.request = some p → s.hostFill = some f → s.served = [] →
      exec .fillTimeout s = .next (s.settle (((s.count rXferIllegal (s.faults.records.filter (fun r => s.pageKey r.page == f.key)).length).closeFaults f.key true).afterFill))) ∧
    (∀ (page : Nat) (data : List Byte) (f : Fill), s.faults.fills.find? (fun f => f.key == s.pageKey page && f.kind != 3) = some f →
      (f.kind = 1 → exec (.faultResolved page data) s = .next (s.settle ((((s.memZero (s.partPhys f.key 0) (4096 * s.pageParts f.key)).validate f.key).closeFaults f.key false).afterFill))) ∧
      (f.kind ≠ 1 → exec (.faultResolved page data) s = .next (s.settle (((((s.memZero (s.partPhys f.key 0) (4096 * s.pageParts f.key)).memWrite (s.partPhys f.key 0)
        (data.take (4096 * s.pageParts f.key))).validate f.key).closeFaults f.key false).afterFill)))) ∧
    (∀ (w : Word) (p : Nat) (f : Fill) (u : State), s.serving = true → s.faults.request = some p → s.hostFill = some f → w.toNat % 2 ^ 24 = p →
      u = { (s.memZero (s.partPhys f.key f.part) 4096).memWrite (s.partPhys f.key f.part) (lookAll (0 : Byte) s.upload.data 0 4096) with faults := { s.faults with request := none } } →
      (f.part + 1 < s.pageParts f.key → exec (.memFillDone w) s = .next (s.settle (State.afterFill { u with
        faults := { u.faults with fills := s.faults.fills.map (fun g => if g.key == f.key then { g with part := g.part + 1 } else g) } }))) ∧
      (s.pageParts f.key ≤ f.part + 1 → exec (.memFillDone w) s = .next (s.settle ((u.validate f.key).closeFaults f.key false).afterFill))) ∧
    (∀ (q : QueueId) (h : Header) (o : EthFlowOps) (r : List Byte × Bool × State), s.starts q ⟨h, .ethFlow o⟩ = true → 0 < o.count → o.count ≤ 256 →
      (∀ i, i < 32 * o.count → ∃ p, s.translate (o.addr + i) false = .ok p) → r = s.virtRead o.addr (32 * o.count) →
      exec (.ethFlow q h o) s = .next (s.settle ((s.engaged q ⟨h, .ethFlow o⟩ { Mover.idle with buf := r.1, poisoned := r.2.1 } r.2.2).worked (s.holder q)).kick)) ∧
    (∀ (q : QueueId) (h : Header) (o : EthGclOps) (r : List Byte × Bool × State) (n : Nat) (es : List (Nat × Nat)) (u : State), s.starts q ⟨h, .ethGcl o⟩ = true → n = unitIndex q.unit → 0 < o.entries →
      o.entries ≤ 256 → (∀ i, i < 8 * o.entries → ∃ p, s.translate (o.addr + i) false = .ok p) → r = s.virtRead o.addr (8 * o.entries) →
      es = (List.range o.entries).map (fun i => (leAt r.1 (8 * i) 1, leAt r.1 (8 * i + 4) 4)) → (∀ e ∈ es, ∀ j, j < 8 → e.1.testBit j = true → s.claimed resEthQueue (8 * n + j) = true) →
      es.foldl (fun a e => a + e.2) 0 = o.cycleNs → o.baseTick ≤ s.now + 2 ^ 63 → r.2.1 = false → u = s.engaged q ⟨h, .ethGcl o⟩ { Mover.idle with buf := r.1 } r.2.2 →
      exec (.ethGcl q h o) s = .next (s.settle ((u.onEth n (fun p => { p with next := some ⟨o.baseTick, o.cycleNs, es⟩ })).worked (s.holder q)).kick)) ∧
    (∀ (q : QueueId) (h : Header) (o : EthSendOps) (n : Nat) (c : Chan) (t : Token) (rest : List Token) (fs : List EthFrame) (f : EthFrame) (u : State), s.starts q ⟨h, .ethSend o⟩ = true →
      n = unitIndex q.unit → n < 4 → c = s.chan o.channel → c.inbox = t :: rest → (s.ethPort n).gcl = none → (s.ethPort n).held = [] →
      fs = tokenFrames t (slice (look [] (s.ethPort n).flows (field c.ent.dest 0 8)) 0 32) n s.device ((c.tokens + 2 ^ 32 - c.inbox.length) % 2 ^ 32) o.queue o.channel (s.holder q) →
      fs.getLast? = some f → u = s.engaged q ⟨h, .ethSend o⟩ { Mover.idle with spent := true } (s.onChan o.channel (fun c => { c with inbox := rest })) →
      exec (.ethSend q h o) s = .next (s.settle ((((u.noteMarks q t.marks.poisoned t.marks.flagged).onEth n (fun p => { p with out := f.data })).returnCredits o.channel 1).worked (s.holder q)).kick))

/-! ## Health and power -/

/-- Repairs, retirements and tests (R47, R114, R130, R323, R341, R343-R345). A scratchpad line that has met an uncorrectable error, or a second correctable one, is moved to a spare row in a natural gap of its core, once
no write claims it, or its core is retired. A retired element (a memory stack with the loss of its contents) stops taking work, SPARES is raised and
placements are recomputed. Before a placement switch, commands of units that stay whose work is finished complete; it takes the chosen placement's endpoints, its program set's lists and its domains, restarts the lists of the phase, and raises SPARES and PLACEMENT. A test that passes
forgets a first failure; a first failure is remembered. A column segment in which a spare is left is replaced. A calibration counts and keeps its tick; a failed one counts as such. A domain that has switched on
opens, and a bank group opens once it is zeroed and takes the tokens that waited for it; then what waited goes on. -/
def Obligations.HealthEventsTakeEffect : Prop :=
  ∀ (s : State), s.boot.inReset = false →
    (∀ (n : Fin 6) (line b : Nat) (c : Core) (x : Line), c = s.cores[coreOf (.tc n)] → b = bankIndex line → x = c.line line →
      (x.worn = false ∨ s.gap (.line n line) = false → exec (.spRepair n line) s = .next s) ∧
      (x.worn = true → s.gap (.line n line) = true → c.sparesLeft b ≠ 0 → c.claims.any (fun y => y.line == line) = true →
        exec (.spRepair n line) s = .next { s with cores := s.cores.set (coreOf (.tc n)) (if c.repairs.contains line then c else { c with repairs := c.repairs ++ [line] }) }) ∧
      (∀ (d : Core) (u : State), x.worn = true → s.gap (.line n line) = true → c.sparesLeft b ≠ 0 → c.claims.any (fun y => y.line == line) = false →
        d = { c with
          lines := put Line.zero c.lines line { x with poison := c.poisoned line, upset := 0, errs := 0 }
          spareUsed := put 0 c.spareUsed b (look 0 c.spareUsed b + 1), spareMap := put 0 c.spareMap line (look 0 c.spareUsed b + 1) } →
        u = { s with cores := s.cores.set (coreOf (.tc n)) d } →
        exec (.spRepair n line) s = .next (if spareWarn c.minSpare.1 12 6 < spareWarn d.minSpare.1 12 6 then u.irq .spares else u)) ∧
      (x.worn = true → s.gap (.line n line) = true → c.sparesLeft b = 0 → exec (.spRepair n line) s = .next (s.settle (((({ s with
        cores := s.cores.set (coreOf (.tc n)) { c with lines := put Line.zero c.lines line { x with poison := true } } }).retireUnit (0x0500 + n)).irq .spares).recheck)))) ∧
    (∀ (f : Nat), f / 256 ≠ 0x06 → exec (.retirement (.unit f)) s = .next (s.settle (((s.retireUnit f).irq .spares).recheck.powerOn))) ∧
    (∀ (f : Nat), f / 256 = 0x06 → exec (.retirement (.unit f)) s = .next (s.settle ((((s.retireUnit f).irq .spares).loseStack (f % 256)).powerOn))) ∧
    (∀ (c q : Nat) (u : Option UnitId) (v : State), u = unitOfField (0x0500 + c) →
      v = { s with otp := { s.otp with quadrants := put 0 s.otp.quadrants c (look 0 s.otp.quadrants c ||| 2 ^ q) } } →
      exec (.retirement (.quadrant c q)) s = .next (s.settle (((((match u with | some u => v.cutUnit u | none => v).retireDomains [10 * c + q]).irq .spares).recheck).powerOn))) ∧
    (∀ (c : Nat), exec (.retirement (.sequencer c)) s = .next (s.settle (((({ s with
      otp := { s.otp with sequencers := (s.otp.sequencers ++ [c]).eraseDups } }.retireUnit (0x0500 + c)).irq .spares).recheck).powerOn))) ∧
    (∀ (t m : Nat) (st : Stream) (p : Placement) (v f : State), s.health.target = some t → s.stream = some st → s.choose st = some m → st.placements[m]? = some p →
      v = { s with health := { s.health with target := none } } → f = v.finishPasses → ((∀ q ∈ s.mainQueues, (s.queue q).prog = []) → f = v) ∧
      ∃ u : State, exec .placementSwitch s = .next (s.settle u.kick) ∧ u.placement = m ∧ u.job.lists = p.lists (st.programs.getD p.programSet []) ∧
        u.health = f.health ∧ u.stream = f.stream ∧ u.job.phase = f.job.phase ∧ u.job.state = f.job.state ∧ u.mem = f.mem ∧ u.window = f.window ∧ u.now = f.now) ∧
    (∀ (t : TestTarget), s.loadCommits = false → s.trip = none → s.ramping = false → s.gap t = true →
      (exec (.backgroundTest t true) s = .next { s with health := { s.health with suspect := none, ageMs := match t with | .column _ _ _ => 0 | _ => s.health.ageMs } }) ∧
      (s.health.suspect ≠ some (testCode t) → exec (.backgroundTest t false) s = .next { s with health := { s.health with suspect := some (testCode t) } })) ∧
    (∀ (core q : Nat) (o : Otp) (u : State), core < 6 → q < 4 → s.otp.columnsUsed core q < 4 →
      o = { s.otp with columns := put 0 s.otp.columns (core * 4 + q) (s.otp.columnsUsed core q + 1) } → u = { s with otp := o } →
      exec (.columnSwap core q) s = .next (s.settle (if spareWarn (5 - o.columnsUsed core q) 2 1 < spareWarn (4 - o.columnsUsed core q) 2 1 then u.irq .spares else u))) ∧
    (∀ kind, kind ≤ 4 → exec (.calibration kind true) s = .next (((s.count (bank kind (blkErr + 0x058)) 1).setReg (bank kind (blkErr + 0x060)) (s.now % 2 ^ 32)).setReg
        (bank kind (blkErr + 0x064)) (s.now / 2 ^ 32 % 2 ^ 32)) ∧
      exec (.calibration kind false) s = .next (s.count (bank kind (blkErr + 0x05C)) 1)) ∧
    (∀ d, s.power.switching.getLsbD d = true → groupDomain d = none → exec (.domainOnDone d) s = .next (s.settle ({ s with power := { s.power with
      on := s.power.on ||| BitVec.ofNat 96 (2 ^ d), switching := s.power.switching &&& ~~~BitVec.ofNat 96 (2 ^ d) } }.kick))) ∧
    (∀ (n : Fin 6) (g d : Nat) (c : Core), g < 4 → d = 10 * n.val + 5 + g → c = s.cores[coreOf (.tc n)] → c.zeroing.getLsbD g = true →
      exec (.bankGroupZeroed n g) s = .next (s.settle (State.arriveAll { s with
        power := { s.power with on := s.power.on ||| BitVec.ofNat 96 (2 ^ d), switching := s.power.switching &&& ~~~BitVec.ofNat 96 (2 ^ d) }
        cores := s.cores.set (coreOf (.tc n)) { c with on := c.on ||| BitVec.ofNat 4 (2 ^ g), zeroing := c.zeroing &&& ~~~BitVec.ofNat 4 (2 ^ g) } } n).kick))

/-- The power controller (R326-R328, R331, R333, R335, R336, R338). A sample takes every rail, its sum stands as package power, and the loops of the cap and of VDD_CORE's current act on it. While a sensor is at or
above its throttle level the ceiling falls by one point down to its bound; when every sensor is 5 °C below, it rises. A step that has settled is the voltage at the die. Rate matching moves VDD_CORE by one step of
5 mV towards its target rate. A droop counts and freezes the ramp until it clears. PWR_BRAKE_N low brakes; its release resumes from the present point. Each ends with the log of reasons and the next ramp step. -/
def Obligations.PowerEventsTakeEffect : Prop :=
  ∀ (s : State), s.boot.inReset = false →
    (∀ (p : Sample) (mv amps mw : Nat) (rest : List (Option (Nat × Nat × Nat))) (u : State), p.rails = some (mv, amps, mw) :: rest →
      u = ((List.range 7).foldl (fun s n => s.takeRail n (p.rails.getD n none)) (s.setRegField rPwrStatus 17 1 0)).setRegField rPwrStatus 19 1 0 →
      exec (.powerSample p) s = .next (s.settle ((((u.setReg (rPwr 0x020) u.packageMw).capLoop (u.setReg (rPwr 0x020) u.packageMw).packageMw).currentLoop amps p.warning).powerOn))) ∧
    (∀ (temps : List (Nat × Int)) (u : State), u = s.readSensors temps → u.overGrade = false → (∀ t ∈ temps, t.2 < tripAt t.1) →
      (u.pwr.sensors.any (fun e => decide (u.throttleAt e.1 ≤ signed 16 e.2)) = true → u.hardBound < min u.pwr.thermal u.opTarget →
        exec (.thermalStep temps) s = .next (s.settle (({ u with pwr := { u.pwr with thermal := min u.pwr.thermal u.opTarget - 1 } }.setRegField rPwrStatus 15 1 0).powerOn))) ∧
      (u.pwr.sensors.any (fun e => decide (u.throttleAt e.1 ≤ signed 16 e.2)) = false → u.pwr.sensors.all (fun e => decide (signed 16 e.2 ≤ u.throttleAt e.1 - 40)) = true →
        exec (.thermalStep temps) s = .next (s.settle (({ u with pwr := { u.pwr with thermal := min 9 (u.pwr.thermal + 1) } }.setRegField rPwrStatus 15 1 0).powerOn)))) ∧
    (∀ v, s.pwr.step = some v → exec .opStepSettled s = .next (s.settle ({ s with pwr := { s.pwr with die := v, step := none } }.powerOn))) ∧
    (∀ (rates : List (Nat × Nat)) (u : State),
      u = { s with pwr := { s.pwr with rates := rates.foldl (fun (m : Table Nat) (r : Nat × Nat) => if r.1 < 6 then put 0 m r.1 (r.2 % 4096) else m) s.pwr.rates } } →
      ((s.reg (rPwr 0x010)).testBit 12 = false → exec (.matchUpdate rates) s = .next (s.settle ({ u with pwr := { u.pwr with matched := none, matchShort := false } }.powerOn))) ∧
      (∀ (r v : Nat), (s.reg (rPwr 0x010)).testBit 12 = true → u.slowest = some r → s.pwr.matched = some v →
        (r < s.reg (rPwr 0x010) % 4096 → exec (.matchUpdate rates) s = .next (s.settle ({ u with pwr := { u.pwr with
          matched := some (min (pointMv u.opTarget) (v + 5)), matchShort := decide (pointMv u.opTarget ≤ v) } }.powerOn))) ∧
        (s.reg (rPwr 0x010) % 4096 < r → exec (.matchUpdate rates) s = .next (s.settle ({ u with pwr := { u.pwr with
          matched := some (max (pointMv u.hardBound) (v - 5)), matchShort := false } }.powerOn))))) ∧
    (∀ unit, s.pwr.droop.contains unit = false →
      exec (.droopFire unit) s = .next (s.settle (({ s.count (rPwr 0x044) 1 with pwr := { s.pwr with droop := s.pwr.droop ++ [unit], frozen := true } }).setReason 2 true))) ∧
    (exec .droopClear s = .next (s.settle ((({ s with pwr := { s.pwr with droop := [], frozen := false } }).setReason 2 false).powerOn))) ∧
    (exec .brakeAssert s = .next (s.settle ({ s with pwr := { s.pwr with brake := true } }.powerOn))) ∧
    (s.pwr.brake = true → exec .brakeRelease s = .next (s.settle ({ s with pwr := { s.pwr with brake := false, cap := pointAt s.pwr.die, capLow := 0 } }.powerOn)))

/-! ## Trips, restarts and Invar -/

/-- The thermal trip and restarts (R267, R268, R337, R353, R372). A trip puts the die at the SUB0 setpoint, empties every scratchpad and switches every domain off, drives pins and PPS_OUT low and stops sensor clocks, kills the stream,
and keeps the sensor, its temperature, the tick and the stream in STATE 1; another trip before it ends returns to STATE 1. Cooling moves STATE 1 to 2, and the restart that follows moves 2 to 3. A restart of the
management controller holds writes until it ends; its end repeats the boot sequence, applies held writes and raises MC_RESTART. The firmware's start trains the Solder ports that answered, burns the ladder,
checks the audit trail, applies held writes, and loads the stream of the boot source unless a held write has started a load. -/
def Obligations.TripsAndRestartsTakeEffect : Prop :=
  ∀ (s : State), s.boot.inReset = false →
    (∀ (sensor : Nat) (temp : Int), temp < tripAt sensor → exec (.thermalTrip sensor temp) s = .next s) ∧
    (∀ (sensor : Nat) (temp : Int), s.trip = none → tripAt sensor ≤ temp →
      ∃ t, exec (.thermalTrip sensor temp) s = .next t ∧
        t.trip = some ⟨1, t.now, unsigned 16 temp, sensor, (match s.stream with | some st => st.id | none => 0), if s.stream.isSome = true then s.loader.copy else []⟩ ∧
        t.pwr.die = 600 ∧ t.pwr.step = none ∧ t.pwr.frozen = false ∧ t.power.on = 0 ∧ t.time.ppsOut = 0 ∧ t.inv.running = false ∧
        (s.stream ≠ none → t.job.state = .killed) ∧ (∀ n : Fin 7, t.cores[n].lines = [] ∧ t.cores[n].on = 0) ∧
        (∀ n : Fin 32, t.time.pins[n].level = false ∧ t.time.gens[n].running = false) ∧ (∀ n : Fin 16, t.mclk[n] = ⟨0, none⟩)) ∧
    (∀ (sensor : Nat) (temp : Int) (x : Trip) (u : State), s.trip = some x → tripAt sensor ≤ temp →
      u = { s with pwr := { s.pwr with sensors := put 0 s.pwr.sensors sensor (unsigned 16 temp) } } →
      (x.state = 1 → exec (.thermalTrip sensor temp) s = .next u) ∧
      (x.state ≠ 1 → exec (.thermalTrip sensor temp) s = .next { u.countTrip with trip := some { x with state := 1 } })) ∧
    (∀ x : Trip, s.trip = some x → x.state = 1 → exec .tripCooling s = .next { s with trip := some { x with state := 2 } }) ∧
    (∀ x : Trip, s.trip = some x → x.state = 2 → exec .tripRestart s = .next { s with trip := some { x with state := 3 }, mgmt := { s.mgmt with restart := true } }) ∧
    (s.boot.up = true → s.trip = none → exec .managementControllerRestart s = .next { s with mgmt := { s.mgmt with restart := true } }) ∧
    (∀ u : State, s.mgmt.restart = true → s.trip = none → u = { s with mgmt := { s.mgmt with restart := false } }.reboot →
      exec .mcRestartEnd s = .next (s.settle ((if u.boot.up = true then u.applyHeld else u).irq .mcRestart).kick)) ∧
    (∀ (ports : List (Nat × Int)) (u v : State), s.boot.recovery = false → s.boot.up = false →
      u = ports.foldl (fun s p => if p.1 < s.part.solderPorts then s.trainPort p.1 p.2 else s) s →
      v = { u with boot := { s.boot with up := true } }.readBoard.burnAtStart.trailCheck.applyHeld →
      (v.loadBusy = true → exec (.firmwareUp ports) s = .next (s.settle v)) ∧
      (v.loadBusy = false → exec (.firmwareUp ports) s = .next (s.settle (v.trySources (bootSources v.boot.straps)))))

/-- Events of Invar (R307, R310, R315, R316, R318-R320). A change of the calibration switch is noted by a running segment in its chain and with a checkpoint. The oldest token of an input that has not been accepted is taken:
its credit goes back at once, and its frame, epoch, digest and marks stand for the next record; a buffer without room drops it and marks the gap. A checkpoint that is due, after 1,024 records or 10 s after the one before, begins when VALUES and BLOB are intact; otherwise the
job is killed and the segment starts again. A signed checkpoint is the latest, stands in its slot, and one that came due meanwhile begins. The UART's ACK ends retries; REQ_IDENT is answered with IDENT, REQ_LAST with the last
indication; an indication without an ACK goes out again. -/
def Obligations.InvarEventsTakeEffect : Prop :=
  ∀ (s : State), s.boot.inReset = false →
    (∀ low : Bool, s.inv.cal ≠ low →
      (s.inv.running = false → exec (.calEnableChange low) s = .next { s with inv := { s.inv with cal := low } }) ∧
      (s.inv.running = true → exec (.calEnableChange low) s = .next (s.settle (({ s with inv := { s.inv with cal := low } }.eventRecord (if low then 1 else 2) 0).beginCheckpoint)))) ∧
    (∀ (i n k : Nat) (c : Chan) (old : InvInput) (t : Token), c = s.chan i → s.hasChan i = true → c.ent.kind = 0x0A → n = min c.unaccepted c.inbox.length → n ≠ 0 → k = c.inbox.length - n →
      old = (look none s.inv.inputs i).getD ⟨0, 0, 0, 0, false⟩ →
      (k < Config.invarRoom i → c.inbox[k]? = some t → exec (.invarInput i) s = .next (s.settle ({ s.onChan i (fun c => c.credit 0 1) with
        inv := { s.inv with inputs := put none s.inv.inputs i (some ⟨t.frame, t.epoch, c.ent.digest,
          if t.marks.frameStart = true then b2n t.marks.flagged + 2 * b2n t.marks.poisoned + 4 * b2n t.marks.pad
          else old.marks ||| (b2n t.marks.flagged + 2 * b2n t.marks.poisoned + 4 * b2n t.marks.pad), old.gap⟩) } }.kick))) ∧
      (Config.invarRoom i ≤ k → ∀ u : State, u = (((s.onChan i (fun c => c.credit 0 1)).onChan i (fun c => { c with inbox := c.inbox.eraseIdx k })).dropToken i 1).count rInvDrop 1 →
        exec (.invarInput i) s = .next (s.settle (({ u with inv := { u.inv with inputs := put none u.inv.inputs i (some { old with gap := true }) } }.eventRecord 5 i).kick)))) ∧
    (∀ (l : Legal) (u : State), s.inv.legal = some l → s.inv.running = true →
      u = { s with now := if s.inv.sinceCkpt < 1024 then max s.now (s.inv.ckptTick + 10 * 16_000_000_000) else s.now } →
      (s.sealIntact l = true → s.inv.signing = none → exec .checkpointDue s = .next { u with
        inv := { s.inv with signing := some u.checkpointBody, due := false, sinceCkpt := 0, ckptTick := u.now } }) ∧
      (s.sealIntact l = true → s.inv.signing ≠ none → exec .checkpointDue s = .next { u with inv := { s.inv with due := true } }) ∧
      (s.sealIntact l = false → exec .checkpointDue s = .next (s.settle (({ u with inv := { s.inv with failed := true } }.killInvar).startSegment l)))) ∧
    (∀ (l : Legal) (b c : List Byte), s.inv.legal = some l → s.inv.signing = some b → s.inv.due = false →
      c = leBytes 8 (s.inv.ckptSeq + 1) ++ b ++ invarSigns (sha384 b) ++ List.replicate 48 0 →
      ∃ t, exec .checkpointSigned s = .next t ∧ t = { s with
        inv := { s.inv with signing := none, ckptSeq := s.inv.ckptSeq + 1, latest := c }
        winErr := t.winErr
        window := if l.ckptSlots = 0 then s.window else putAll 0 s.window (l.ckptPage * 4096 + s.inv.ckptSeq % l.ckptSlots * 36864) c }) ∧
    (∀ f : List Byte, s.inv.running = true →
      (uartType f = some 1 → exec (.ack f) s = .next { s with inv := { s.inv with acked := true, retries := 0 } }) ∧
      (uartType f = some 2 → exec (.reqIdent f) s = .next { s with inv := { s.inv with out := s.identFrame } }) ∧
      (uartType f = some 3 → s.inv.last ≠ [] → exec (.reqLast f) s = .next { s with inv := { s.inv with out := s.inv.last } }) ∧
      (uartType f = none → ∀ i ∈ [Instr.ack f, .reqIdent f, .reqLast f], exec i s = .next (s.count rUartBad 1))) ∧
    (s.inv.acked = false → s.inv.retries ≠ 0 → exec .uartRetry s = .next { s with inv := { s.inv with out := s.inv.last, retries := s.inv.retries - 1 } })
end

