-- ==== Sys2Proof/Laws/Sparse.lean ====
section
/-! SUPPORT. Laws/Sparse.lean: reading after writing in tables, and the canonical form that every table operation keeps. -/

namespace Sys2Proof.Machine

variable {α : Type} {d : α}

@[simp] theorem look_nil (k : Nat) : look d [] k = d := rfl

/-- A table whose keys start above `k` reads as the unlisted value at `k`. -/
theorem look_of_lt [DecidableEq α] {lo k : Nat} {m : Table α} (h : canonFrom d lo m = true) (hk : k < lo) : look d m k = d := by
  cases m with
  | nil => rfl
  | cons e t =>
    obtain ⟨j, v⟩ := e
    simp [canonFrom] at h
    simp only [look]
    rw [if_neg (by omega), if_pos (by omega)]

/-- A canonical tail reads as the unlisted value at every key not above its head's. -/
theorem look_of_le [DecidableEq α] {j k : Nat} {m : Table α} (h : canonFrom d (j + 1) m = true) (hk : k ≤ j) : look d m k = d :=
  look_of_lt h (by omega)

/-- A table in canonical form above `b` is so above any lower bound. -/
theorem canonFrom_mono [DecidableEq α] {a b : Nat} {t : Table α} (hab : a ≤ b) (ht : canonFrom d b t = true) : canonFrom d a t = true := by
  cases t with
  | nil => rfl
  | cons e t => simp [canonFrom] at ht ⊢; exact ⟨⟨by omega, ht.1.2⟩, ht.2⟩

/-- A listed value is read back, in any table. -/
theorem look_put_self [DecidableEq α] {v : α} (hv : v ≠ d) (m : Table α) (k : Nat) : look d (put d m k v) k = v := by
  induction m with
  | nil => simp [put, hv, look]
  | cons e t ih =>
    obtain ⟨j, w⟩ := e
    simp only [put, if_neg hv]
    split
    · simp [look]
    · split
      · simp [look]
      · simp only [look]
        rw [if_neg (by omega), if_neg (by omega), ih]

/-- Writing a listed value leaves every other key alone, in any table. -/
theorem look_put_other [DecidableEq α] {v : α} (hv : v ≠ d) (m : Table α) {k i : Nat} (hi : i ≠ k) : look d (put d m k v) i = look d m i := by
  induction m with
  | nil =>
    simp only [put, if_neg hv, look]
    rw [if_neg (by omega)]
    split <;> rfl
  | cons e t ih =>
    obtain ⟨j, w⟩ := e
    simp only [put, if_neg hv]
    split
    · simp only [look]
      rw [if_neg (by omega)]
      split
      · rw [if_neg (by omega), if_pos (by omega)]
      · rfl
    · split
      · simp only [look]
        subst_vars
        rw [if_neg (Ne.symm hi), if_neg (Ne.symm hi)]
      · simp only [look, ih]

/-- Reading after a write, in a canonical table. -/
theorem look_put [DecidableEq α] {lo : Nat} {m : Table α} (h : canonFrom d lo m = true) (k : Nat) (v : α) (i : Nat) :
    look d (put d m k v) i = if i = k then v else look d m i := by
  induction m generalizing lo with
  | nil =>
    simp only [put]
    by_cases hv : v = d
    · simp [hv, look]
    · simp only [if_neg hv, look]
      by_cases hi : i = k
      · simp [hi]
      · rw [if_neg (by omega), if_neg hi]; split <;> rfl
  | cons e t ih =>
    obtain ⟨j, w⟩ := e
    have hh := h
    simp [canonFrom] at hh
    obtain ⟨⟨h1, h2⟩, h3⟩ := hh
    simp only [put]
    by_cases hkj : k < j
    · simp only [if_pos hkj]
      by_cases hv : v = d
      · simp only [if_pos hv]
        by_cases hi : i = k
        · subst hi; simp only [look, if_true]; rw [if_neg (by omega), if_pos hkj, hv]
        · simp [hi]
      · simp only [if_neg hv]
        by_cases hi : i = k
        · subst hi; simp [look]
        · simp only [look, if_neg hi]
          rw [if_neg (by omega)]
          by_cases hik : i < k
          · rw [if_pos hik, if_neg (by omega), if_pos (by omega)]
          · rw [if_neg hik]
    · simp only [if_neg hkj]
      by_cases hjk : j = k
      · subst hjk
        simp only [if_true]
        by_cases hv : v = d
        · simp only [if_pos hv]
          by_cases hi : i = j
          · simp only [if_pos hi, hv]; exact look_of_le h3 (by omega)
          · simp only [if_neg hi, look]
            rw [if_neg (by omega)]
            by_cases hij : i < j
            · rw [if_pos hij]; exact look_of_le h3 (by omega)
            · rw [if_neg hij]
        · simp only [if_neg hv, look]
          by_cases hi : i = j
          · simp [hi]
          · rw [if_neg (by omega), if_neg hi]
            by_cases hij : i < j
            · simp [hij, Ne.symm hi]
            · simp [hij, Ne.symm hi]
      · simp only [if_neg hjk, look, ih h3]
        by_cases hi : i = k
        · subst hi; rw [if_neg hjk, if_neg hkj]; simp
        · simp [hi]

/-- A write keeps the canonical form. -/
theorem canonFrom_put [DecidableEq α] {lo k : Nat} {v : α} {m : Table α} (h : canonFrom d lo m = true) (hk : lo ≤ k) :
    canonFrom d lo (put d m k v) = true := by
  induction m generalizing lo with
  | nil =>
    simp only [put]
    by_cases hv : v = d <;> simp [hv, canonFrom, hk]
  | cons e t ih =>
    obtain ⟨j, w⟩ := e
    have hh := h
    simp [canonFrom] at hh
    obtain ⟨⟨h1, h2⟩, h3⟩ := hh
    simp only [put]
    by_cases hkj : k < j
    · simp only [if_pos hkj]
      by_cases hv : v = d
      · simp only [if_pos hv]; exact h
      · simp only [if_neg hv]
        simp [canonFrom, hv, h2, h3]; omega
    · simp only [if_neg hkj]
      by_cases hjk : j = k
      · subst hjk
        simp only [if_true]
        by_cases hv : v = d
        · simp only [if_pos hv]
          exact canonFrom_mono (by omega) h3
        · simp only [if_neg hv]; simp [canonFrom, hv, h3, h1]
      · simp only [if_neg hjk]
        simp [canonFrom, h1, h2]
        exact ih h3 (by omega)

/-- A write keeps the canonical form of a whole table. -/
theorem canon_put [DecidableEq α] {m : Table α} (h : canon d m = true) (k : Nat) (v : α) : canon d (put d m k v) = true :=
  canonFrom_put h (Nat.zero_le k)

/-- Reading after a write, in a canonical table. -/
theorem look_put_canon [DecidableEq α] {m : Table α} (h : canon d m = true) (k : Nat) (v : α) (i : Nat) :
    look d (put d m k v) i = if i = k then v else look d m i := look_put h k v i

/-- Consecutive writes keep the canonical form. -/
theorem canon_putAll [DecidableEq α] (vs : List α) {m : Table α} (h : canon d m = true) (k : Nat) : canon d (putAll d m k vs) = true := by
  induction vs generalizing m k with
  | nil => exact h
  | cons v vs ih => exact ih (canon_put h k v) (k + 1)

/-- What consecutive writes leave at each key. -/
theorem look_putAll [DecidableEq α] (vs : List α) {m : Table α} (h : canon d m = true) (k i : Nat) :
    look d (putAll d m k vs) i = if k ≤ i ∧ i < k + vs.length then vs.getD (i - k) d else look d m i := by
  induction vs generalizing m k with
  | nil => simp only [putAll, List.length_nil]; rw [if_neg (by omega)]
  | cons v vs ih =>
    simp only [putAll, List.length_cons]
    rw [ih (canon_put h k v), look_put_canon h]
    by_cases h1 : k + 1 ≤ i ∧ i < k + 1 + vs.length
    · rw [if_pos h1, if_pos (by omega)]
      have : i - k = (i - (k + 1)) + 1 := by omega
      rw [this, List.getD_cons_succ]
    · rw [if_neg h1]
      by_cases h2 : i = k
      · subst h2; simp
      · rw [if_neg h2, if_neg (by omega)]

/-- Keys that a test keeps: the canonical form stays. -/
theorem canonFrom_filter [DecidableEq α] (p : Nat × α → Bool) {lo : Nat} {m : Table α} (h : canonFrom d lo m = true) :
    canonFrom d lo (m.filter p) = true := by
  induction m generalizing lo with
  | nil => rfl
  | cons e t ih =>
    obtain ⟨j, w⟩ := e
    simp [canonFrom] at h
    obtain ⟨⟨h1, h2⟩, h3⟩ := h
    rw [List.filter_cons]
    split
    · simp [canonFrom, h1, h2]; exact ih h3
    · exact canonFrom_mono (by omega) (ih h3)

/-- Wiping a range keeps the canonical form. -/
theorem canon_wipe [DecidableEq α] {m : Table α} (h : canon d m = true) (lo hi : Nat) : canon d (wipe m lo hi) = true := canonFrom_filter _ h

/-- A change at one key keeps the canonical form. -/
theorem canon_tweak [DecidableEq α] {m : Table α} (h : canon d m = true) (k : Nat) (f : α → α) : canon d (tweak d m k f) = true :=
  canon_put h k _

/-- A second write of a key takes the place of a first that was listed. -/
theorem put_put [DecidableEq α] {v : α} (hv : v ≠ d) (m : Table α) (k : Nat) (w : α) : put d (put d m k v) k w = put d m k w := by
  induction m with
  | nil => simp [put, hv]
  | cons e t ih =>
    obtain ⟨j, x⟩ := e
    by_cases h1 : k < j
    · simp [put, h1, hv]
    · by_cases h2 : j = k
      · subst h2; simp [put, hv]
      · simp [put, h1, h2, ih]

/-- Consecutive writes are read back. -/
theorem lookAll_putAll [DecidableEq α] (vs : List α) {m : Table α} (h : canon d m = true) (k : Nat) : lookAll d (putAll d m k vs) k vs.length = vs := by
  apply List.ext_getElem
  · simp [lookAll]
  · intro i h1 h2
    simp only [lookAll, List.getElem_map, List.getElem_range]
    rw [look_putAll vs h, if_pos (by omega)]
    simp [List.getD_eq_getElem?_getD, Nat.add_sub_cancel_left, h2]

/-- Consecutive reads in two parts. -/
theorem lookAll_append (m : Table α) (k a b : Nat) : lookAll d m k (a + b) = lookAll d m k a ++ lookAll d m (k + a) b := by
  simp [lookAll, List.range_add, Nat.add_assoc, Function.comp_def]

/-- Reads that a write outside them leaves alone. -/
theorem lookAll_congr {m m' : Table α} (k n : Nat) (h : ∀ i, k ≤ i → i < k + n → look d m i = look d m' i) : lookAll d m k n = lookAll d m' k n := by
  unfold lookAll
  apply List.map_congr_left
  intro i hi
  exact h _ (by omega) (by have := List.mem_range.mp hi; omega)

end Sys2Proof.Machine
end

