-- ==== Sys2Proof/Laws/Bytes.lean ====
section
/-! SUPPORT. Laws/Bytes.lean: bytes of numbers, of words and of memories. -/

namespace Sys2Proof.Machine

open Sys2Proof

/-- Sequence numbers go 1, 2, …, 0xFFFF_FFFF, 1. -/
theorem seqNext_eq (n : Nat) : seqNext n = if n < 2 ^ 32 - 1 then n + 1 else 1 := by
  unfold seqNext; split <;> split <;> omega

/-- A little-endian number has as many bytes as asked. -/
theorem leBytes_length (n x : Nat) : (leBytes n x).length = n := by
  induction n generalizing x <;> simp_all [leBytes]

/-- Bytes written to a table in canonical form are read back, the others stay, and the form stays. -/
theorem putAll_written (m : Table Byte) (hw : canon (0 : Byte) m = true) (a : Nat) (bs : List Byte) (n : Nat) (hl : bs.length = n) :
   lookAll (0 : Byte) (putAll 0 m a bs) a n = bs ∧ (∀ x, x < a ∨ a + n ≤ x → look (0 : Byte) (putAll 0 m a bs) x = look 0 m x) ∧ canon (0 : Byte) (putAll 0 m a bs) = true := by
  subst hl
  refine ⟨lookAll_putAll bs hw a, fun x hx => ?_, canon_putAll bs hw a⟩
  rw [look_putAll bs hw, if_neg (by omega)]

/-- Words written out as bytes. -/
theorem wordBytes_range_length (f : Nat → Nat) : ∀ n, (wordBytes ((List.range n).map f)).length = 4 * n := by
  intro n
  induction n with
  | zero => rfl
  | succ n ih =>
    rw [List.range_succ, List.map_append, wordBytes, List.flatMap_append, List.length_append]
    have : (List.flatMap (leBytes 4) (List.map f (List.range n))).length = 4 * n := ih
    rw [this]
    simp [leBytes_length]; omega

/-- Words written out as bytes are four times as many. -/
theorem wordBytes_length (ws : List Nat) : (wordBytes ws).length = 4 * ws.length := by
  induction ws with
  | nil => rfl
  | cons w ws ih =>
    have : wordBytes (w :: ws) = leBytes 4 w ++ wordBytes ws := rfl
    rw [this, List.length_append, ih, leBytes_length, List.length_cons]; omega

/-- Consecutive reads have their length. -/
theorem lookAll_length {α : Type} [DecidableEq α] (d : α) (m : Table α) (a n : Nat) : (lookAll d m a n).length = n := by
  simp [lookAll]

/-- A masked write takes the bytes its mask enables and keeps the others. -/
theorem maskedBytes_get (old new : List Byte) (mask j : Nat) (hj : j < old.length) : (maskedBytes old new mask).getD j 0 = if mask.testBit j then old.getD j 0 else new.getD j 0 := by
  unfold maskedBytes
  simp [hj]

end Sys2Proof.Machine
end

