-- ==== Sys2Proof/Laws/State.lean ====
section
/-! SUPPORT. Laws/State.lean: what each primary update of State leaves in each field, by definition. -/

namespace Sys2Proof.Machine

open Sys2Proof

variable (s t : State)

/-! ## setReg -/

@[simp] theorem State.setReg_part (k v : Nat) : (s.setReg k v).part = s.part := rfl
@[simp] theorem State.setReg_free (k v : Nat) : (s.setReg k v).free = s.free := rfl
@[simp] theorem State.setReg_now (k v : Nat) : (s.setReg k v).now = s.now := rfl
@[simp] theorem State.setReg_regs (k v : Nat) : (s.setReg k v).regs = put (0 : Word) s.regs k (BitVec.ofNat 32 v) := rfl
@[simp] theorem State.setReg_job (k v : Nat) : (s.setReg k v).job = s.job := rfl
@[simp] theorem State.setReg_loader (k v : Nat) : (s.setReg k v).loader = s.loader := rfl
@[simp] theorem State.setReg_stream (k v : Nat) : (s.setReg k v).stream = s.stream := rfl
@[simp] theorem State.setReg_placement (k v : Nat) : (s.setReg k v).placement = s.placement := rfl
@[simp] theorem State.setReg_queues (k v : Nat) : (s.setReg k v).queues = s.queues := rfl
@[simp] theorem State.setReg_tokens (k v : Nat) : (s.setReg k v).tokens = s.tokens := rfl
@[simp] theorem State.setReg_timers (k v : Nat) : (s.setReg k v).timers = s.timers := rfl
@[simp] theorem State.setReg_chans (k v : Nat) : (s.setReg k v).chans = s.chans := rfl
@[simp] theorem State.setReg_cached (k v : Nat) : (s.setReg k v).cached = s.cached := rfl
@[simp] theorem State.setReg_snap (k v : Nat) : (s.setReg k v).snap = s.snap := rfl
@[simp] theorem State.setReg_cores (k v : Nat) : (s.setReg k v).cores = s.cores := rfl
@[simp] theorem State.setReg_mem (k v : Nat) : (s.setReg k v).mem = s.mem := rfl
@[simp] theorem State.setReg_memBad (k v : Nat) : (s.setReg k v).memBad = s.memBad := rfl
@[simp] theorem State.setReg_pages (k v : Nat) : (s.setReg k v).pages = s.pages := rfl
@[simp] theorem State.setReg_faults (k v : Nat) : (s.setReg k v).faults = s.faults := rfl
@[simp] theorem State.setReg_window (k v : Nat) : (s.setReg k v).window = s.window := rfl
@[simp] theorem State.setReg_linkErr (k v : Nat) : (s.setReg k v).linkErr = s.linkErr := rfl
@[simp] theorem State.setReg_ee (k v : Nat) : (s.setReg k v).ee = s.ee := rfl
@[simp] theorem State.setReg_ports (k v : Nat) : (s.setReg k v).ports = s.ports := rfl
@[simp] theorem State.setReg_remotes (k v : Nat) : (s.setReg k v).remotes = s.remotes := rfl
@[simp] theorem State.setReg_unreachable (k v : Nat) : (s.setReg k v).unreachable = s.unreachable := rfl
@[simp] theorem State.setReg_cams (k v : Nat) : (s.setReg k v).cams = s.cams := rfl
@[simp] theorem State.setReg_pipes (k v : Nat) : (s.setReg k v).pipes = s.pipes := rfl
@[simp] theorem State.setReg_trigs (k v : Nat) : (s.setReg k v).trigs = s.trigs := rfl
@[simp] theorem State.setReg_time (k v : Nat) : (s.setReg k v).time = s.time := rfl
@[simp] theorem State.setReg_mclk (k v : Nat) : (s.setReg k v).mclk = s.mclk := rfl
@[simp] theorem State.setReg_ibi (k v : Nat) : (s.setReg k v).ibi = s.ibi := rfl
@[simp] theorem State.setReg_power (k v : Nat) : (s.setReg k v).power = s.power := rfl
@[simp] theorem State.setReg_eth (k v : Nat) : (s.setReg k v).eth = s.eth := rfl
@[simp] theorem State.setReg_relayed (k v : Nat) : (s.setReg k v).relayed = s.relayed := rfl
@[simp] theorem State.setReg_colls (k v : Nat) : (s.setReg k v).colls = s.colls := rfl
@[simp] theorem State.setReg_early (k v : Nat) : (s.setReg k v).early = s.early := rfl
@[simp] theorem State.setReg_served (k v : Nat) : (s.setReg k v).served = s.served := rfl
@[simp] theorem State.setReg_memStacks (k v : Nat) : (s.setReg k v).memStacks = s.memStacks := rfl
@[simp] theorem State.setReg_otp (k v : Nat) : (s.setReg k v).otp = s.otp := rfl
@[simp] theorem State.setReg_flash (k v : Nat) : (s.setReg k v).flash = s.flash := rfl
@[simp] theorem State.setReg_boot (k v : Nat) : (s.setReg k v).boot = s.boot := rfl
@[simp] theorem State.setReg_sec (k v : Nat) : (s.setReg k v).sec = s.sec := rfl
@[simp] theorem State.setReg_upload (k v : Nat) : (s.setReg k v).upload = s.upload := rfl
@[simp] theorem State.setReg_host (k v : Nat) : (s.setReg k v).host = s.host := rfl
@[simp] theorem State.setReg_mgmt (k v : Nat) : (s.setReg k v).mgmt = s.mgmt := rfl
@[simp] theorem State.setReg_inv (k v : Nat) : (s.setReg k v).inv = s.inv := rfl
@[simp] theorem State.setReg_pwr (k v : Nat) : (s.setReg k v).pwr = s.pwr := rfl
@[simp] theorem State.setReg_trip (k v : Nat) : (s.setReg k v).trip = s.trip := rfl
@[simp] theorem State.setReg_health (k v : Nat) : (s.setReg k v).health = s.health := rfl
@[simp] theorem State.setReg_pending (k v : Nat) : (s.setReg k v).pending = s.pending := rfl

/-! ## setQueue -/

@[simp] theorem State.setQueue_part (q : QueueId) (v : QState) : (s.setQueue q v).part = s.part := rfl
@[simp] theorem State.setQueue_free (q : QueueId) (v : QState) : (s.setQueue q v).free = s.free := rfl
@[simp] theorem State.setQueue_now (q : QueueId) (v : QState) : (s.setQueue q v).now = s.now := rfl
@[simp] theorem State.setQueue_regs (q : QueueId) (v : QState) : (s.setQueue q v).regs = s.regs := rfl
@[simp] theorem State.setQueue_job (q : QueueId) (v : QState) : (s.setQueue q v).job = s.job := rfl
@[simp] theorem State.setQueue_loader (q : QueueId) (v : QState) : (s.setQueue q v).loader = s.loader := rfl
@[simp] theorem State.setQueue_stream (q : QueueId) (v : QState) : (s.setQueue q v).stream = s.stream := rfl
@[simp] theorem State.setQueue_placement (q : QueueId) (v : QState) : (s.setQueue q v).placement = s.placement := rfl
@[simp] theorem State.setQueue_queues (q : QueueId) (v : QState) : (s.setQueue q v).queues = put QState.start s.queues (queueKey q) v := rfl
@[simp] theorem State.setQueue_tokens (q : QueueId) (v : QState) : (s.setQueue q v).tokens = s.tokens := rfl
@[simp] theorem State.setQueue_timers (q : QueueId) (v : QState) : (s.setQueue q v).timers = s.timers := rfl
@[simp] theorem State.setQueue_chans (q : QueueId) (v : QState) : (s.setQueue q v).chans = s.chans := rfl
@[simp] theorem State.setQueue_cached (q : QueueId) (v : QState) : (s.setQueue q v).cached = s.cached := rfl
@[simp] theorem State.setQueue_snap (q : QueueId) (v : QState) : (s.setQueue q v).snap = s.snap := rfl
@[simp] theorem State.setQueue_cores (q : QueueId) (v : QState) : (s.setQueue q v).cores = s.cores := rfl
@[simp] theorem State.setQueue_mem (q : QueueId) (v : QState) : (s.setQueue q v).mem = s.mem := rfl
@[simp] theorem State.setQueue_memBad (q : QueueId) (v : QState) : (s.setQueue q v).memBad = s.memBad := rfl
@[simp] theorem State.setQueue_pages (q : QueueId) (v : QState) : (s.setQueue q v).pages = s.pages := rfl
@[simp] theorem State.setQueue_faults (q : QueueId) (v : QState) : (s.setQueue q v).faults = s.faults := rfl
@[simp] theorem State.setQueue_window (q : QueueId) (v : QState) : (s.setQueue q v).window = s.window := rfl
@[simp] theorem State.setQueue_linkErr (q : QueueId) (v : QState) : (s.setQueue q v).linkErr = s.linkErr := rfl
@[simp] theorem State.setQueue_ee (q : QueueId) (v : QState) : (s.setQueue q v).ee = s.ee := rfl
@[simp] theorem State.setQueue_ports (q : QueueId) (v : QState) : (s.setQueue q v).ports = s.ports := rfl
@[simp] theorem State.setQueue_remotes (q : QueueId) (v : QState) : (s.setQueue q v).remotes = s.remotes := rfl
@[simp] theorem State.setQueue_unreachable (q : QueueId) (v : QState) : (s.setQueue q v).unreachable = s.unreachable := rfl
@[simp] theorem State.setQueue_cams (q : QueueId) (v : QState) : (s.setQueue q v).cams = s.cams := rfl
@[simp] theorem State.setQueue_pipes (q : QueueId) (v : QState) : (s.setQueue q v).pipes = s.pipes := rfl
@[simp] theorem State.setQueue_trigs (q : QueueId) (v : QState) : (s.setQueue q v).trigs = s.trigs := rfl
@[simp] theorem State.setQueue_time (q : QueueId) (v : QState) : (s.setQueue q v).time = s.time := rfl
@[simp] theorem State.setQueue_mclk (q : QueueId) (v : QState) : (s.setQueue q v).mclk = s.mclk := rfl
@[simp] theorem State.setQueue_ibi (q : QueueId) (v : QState) : (s.setQueue q v).ibi = s.ibi := rfl
@[simp] theorem State.setQueue_power (q : QueueId) (v : QState) : (s.setQueue q v).power = s.power := rfl
@[simp] theorem State.setQueue_eth (q : QueueId) (v : QState) : (s.setQueue q v).eth = s.eth := rfl
@[simp] theorem State.setQueue_relayed (q : QueueId) (v : QState) : (s.setQueue q v).relayed = s.relayed := rfl
@[simp] theorem State.setQueue_colls (q : QueueId) (v : QState) : (s.setQueue q v).colls = s.colls := rfl
@[simp] theorem State.setQueue_early (q : QueueId) (v : QState) : (s.setQueue q v).early = s.early := rfl
@[simp] theorem State.setQueue_served (q : QueueId) (v : QState) : (s.setQueue q v).served = s.served := rfl
@[simp] theorem State.setQueue_memStacks (q : QueueId) (v : QState) : (s.setQueue q v).memStacks = s.memStacks := rfl
@[simp] theorem State.setQueue_otp (q : QueueId) (v : QState) : (s.setQueue q v).otp = s.otp := rfl
@[simp] theorem State.setQueue_flash (q : QueueId) (v : QState) : (s.setQueue q v).flash = s.flash := rfl
@[simp] theorem State.setQueue_boot (q : QueueId) (v : QState) : (s.setQueue q v).boot = s.boot := rfl
@[simp] theorem State.setQueue_sec (q : QueueId) (v : QState) : (s.setQueue q v).sec = s.sec := rfl
@[simp] theorem State.setQueue_upload (q : QueueId) (v : QState) : (s.setQueue q v).upload = s.upload := rfl
@[simp] theorem State.setQueue_host (q : QueueId) (v : QState) : (s.setQueue q v).host = s.host := rfl
@[simp] theorem State.setQueue_mgmt (q : QueueId) (v : QState) : (s.setQueue q v).mgmt = s.mgmt := rfl
@[simp] theorem State.setQueue_inv (q : QueueId) (v : QState) : (s.setQueue q v).inv = s.inv := rfl
@[simp] theorem State.setQueue_pwr (q : QueueId) (v : QState) : (s.setQueue q v).pwr = s.pwr := rfl
@[simp] theorem State.setQueue_trip (q : QueueId) (v : QState) : (s.setQueue q v).trip = s.trip := rfl
@[simp] theorem State.setQueue_health (q : QueueId) (v : QState) : (s.setQueue q v).health = s.health := rfl
@[simp] theorem State.setQueue_pending (q : QueueId) (v : QState) : (s.setQueue q v).pending = s.pending := rfl

/-! ## signal -/

@[simp] theorem State.signal_part (u : UnitId) (c : Nat) : (s.signal u c).part = s.part := rfl
@[simp] theorem State.signal_free (u : UnitId) (c : Nat) : (s.signal u c).free = s.free := rfl
@[simp] theorem State.signal_now (u : UnitId) (c : Nat) : (s.signal u c).now = s.now := rfl
@[simp] theorem State.signal_regs (u : UnitId) (c : Nat) : (s.signal u c).regs = s.regs := rfl
@[simp] theorem State.signal_job (u : UnitId) (c : Nat) : (s.signal u c).job = s.job := rfl
@[simp] theorem State.signal_loader (u : UnitId) (c : Nat) : (s.signal u c).loader = s.loader := rfl
@[simp] theorem State.signal_stream (u : UnitId) (c : Nat) : (s.signal u c).stream = s.stream := rfl
@[simp] theorem State.signal_placement (u : UnitId) (c : Nat) : (s.signal u c).placement = s.placement := rfl
@[simp] theorem State.signal_queues (u : UnitId) (c : Nat) : (s.signal u c).queues = s.queues := rfl
@[simp] theorem State.signal_tokens (u : UnitId) (c : Nat) : (s.signal u c).tokens = tweak (0 : Half) s.tokens (unitIdx u * 64 + c) (· + 1) := rfl
@[simp] theorem State.signal_timers (u : UnitId) (c : Nat) : (s.signal u c).timers = s.timers := rfl
@[simp] theorem State.signal_chans (u : UnitId) (c : Nat) : (s.signal u c).chans = s.chans := rfl
@[simp] theorem State.signal_cached (u : UnitId) (c : Nat) : (s.signal u c).cached = s.cached := rfl
@[simp] theorem State.signal_snap (u : UnitId) (c : Nat) : (s.signal u c).snap = s.snap := rfl
@[simp] theorem State.signal_cores (u : UnitId) (c : Nat) : (s.signal u c).cores = s.cores := rfl
@[simp] theorem State.signal_mem (u : UnitId) (c : Nat) : (s.signal u c).mem = s.mem := rfl
@[simp] theorem State.signal_memBad (u : UnitId) (c : Nat) : (s.signal u c).memBad = s.memBad := rfl
@[simp] theorem State.signal_pages (u : UnitId) (c : Nat) : (s.signal u c).pages = s.pages := rfl
@[simp] theorem State.signal_faults (u : UnitId) (c : Nat) : (s.signal u c).faults = s.faults := rfl
@[simp] theorem State.signal_window (u : UnitId) (c : Nat) : (s.signal u c).window = s.window := rfl
@[simp] theorem State.signal_linkErr (u : UnitId) (c : Nat) : (s.signal u c).linkErr = s.linkErr := rfl
@[simp] theorem State.signal_ee (u : UnitId) (c : Nat) : (s.signal u c).ee = s.ee := rfl
@[simp] theorem State.signal_ports (u : UnitId) (c : Nat) : (s.signal u c).ports = s.ports := rfl
@[simp] theorem State.signal_remotes (u : UnitId) (c : Nat) : (s.signal u c).remotes = s.remotes := rfl
@[simp] theorem State.signal_unreachable (u : UnitId) (c : Nat) : (s.signal u c).unreachable = s.unreachable := rfl
@[simp] theorem State.signal_cams (u : UnitId) (c : Nat) : (s.signal u c).cams = s.cams := rfl
@[simp] theorem State.signal_pipes (u : UnitId) (c : Nat) : (s.signal u c).pipes = s.pipes := rfl
@[simp] theorem State.signal_trigs (u : UnitId) (c : Nat) : (s.signal u c).trigs = s.trigs := rfl
@[simp] theorem State.signal_time (u : UnitId) (c : Nat) : (s.signal u c).time = s.time := rfl
@[simp] theorem State.signal_mclk (u : UnitId) (c : Nat) : (s.signal u c).mclk = s.mclk := rfl
@[simp] theorem State.signal_ibi (u : UnitId) (c : Nat) : (s.signal u c).ibi = s.ibi := rfl
@[simp] theorem State.signal_power (u : UnitId) (c : Nat) : (s.signal u c).power = s.power := rfl
@[simp] theorem State.signal_eth (u : UnitId) (c : Nat) : (s.signal u c).eth = s.eth := rfl
@[simp] theorem State.signal_relayed (u : UnitId) (c : Nat) : (s.signal u c).relayed = s.relayed := rfl
@[simp] theorem State.signal_colls (u : UnitId) (c : Nat) : (s.signal u c).colls = s.colls := rfl
@[simp] theorem State.signal_early (u : UnitId) (c : Nat) : (s.signal u c).early = s.early := rfl
@[simp] theorem State.signal_served (u : UnitId) (c : Nat) : (s.signal u c).served = s.served := rfl
@[simp] theorem State.signal_memStacks (u : UnitId) (c : Nat) : (s.signal u c).memStacks = s.memStacks := rfl
@[simp] theorem State.signal_otp (u : UnitId) (c : Nat) : (s.signal u c).otp = s.otp := rfl
@[simp] theorem State.signal_flash (u : UnitId) (c : Nat) : (s.signal u c).flash = s.flash := rfl
@[simp] theorem State.signal_boot (u : UnitId) (c : Nat) : (s.signal u c).boot = s.boot := rfl
@[simp] theorem State.signal_sec (u : UnitId) (c : Nat) : (s.signal u c).sec = s.sec := rfl
@[simp] theorem State.signal_upload (u : UnitId) (c : Nat) : (s.signal u c).upload = s.upload := rfl
@[simp] theorem State.signal_host (u : UnitId) (c : Nat) : (s.signal u c).host = s.host := rfl
@[simp] theorem State.signal_mgmt (u : UnitId) (c : Nat) : (s.signal u c).mgmt = s.mgmt := rfl
@[simp] theorem State.signal_inv (u : UnitId) (c : Nat) : (s.signal u c).inv = s.inv := rfl
@[simp] theorem State.signal_pwr (u : UnitId) (c : Nat) : (s.signal u c).pwr = s.pwr := rfl
@[simp] theorem State.signal_trip (u : UnitId) (c : Nat) : (s.signal u c).trip = s.trip := rfl
@[simp] theorem State.signal_health (u : UnitId) (c : Nat) : (s.signal u c).health = s.health := rfl
@[simp] theorem State.signal_pending (u : UnitId) (c : Nat) : (s.signal u c).pending = s.pending := rfl

/-! ## onChan -/

@[simp] theorem State.onChan_part (i : Nat) (f : Chan → Chan) : (s.onChan i f).part = s.part := rfl
@[simp] theorem State.onChan_free (i : Nat) (f : Chan → Chan) : (s.onChan i f).free = s.free := rfl
@[simp] theorem State.onChan_now (i : Nat) (f : Chan → Chan) : (s.onChan i f).now = s.now := rfl
@[simp] theorem State.onChan_regs (i : Nat) (f : Chan → Chan) : (s.onChan i f).regs = s.regs := rfl
@[simp] theorem State.onChan_job (i : Nat) (f : Chan → Chan) : (s.onChan i f).job = s.job := rfl
@[simp] theorem State.onChan_loader (i : Nat) (f : Chan → Chan) : (s.onChan i f).loader = s.loader := rfl
@[simp] theorem State.onChan_stream (i : Nat) (f : Chan → Chan) : (s.onChan i f).stream = s.stream := rfl
@[simp] theorem State.onChan_placement (i : Nat) (f : Chan → Chan) : (s.onChan i f).placement = s.placement := rfl
@[simp] theorem State.onChan_queues (i : Nat) (f : Chan → Chan) : (s.onChan i f).queues = s.queues := rfl
@[simp] theorem State.onChan_tokens (i : Nat) (f : Chan → Chan) : (s.onChan i f).tokens = s.tokens := rfl
@[simp] theorem State.onChan_timers (i : Nat) (f : Chan → Chan) : (s.onChan i f).timers = s.timers := rfl
@[simp] theorem State.onChan_chans (i : Nat) (f : Chan → Chan) : (s.onChan i f).chans = s.chans.modify i f := rfl
@[simp] theorem State.onChan_cached (i : Nat) (f : Chan → Chan) : (s.onChan i f).cached = s.cached := rfl
@[simp] theorem State.onChan_snap (i : Nat) (f : Chan → Chan) : (s.onChan i f).snap = s.snap := rfl
@[simp] theorem State.onChan_cores (i : Nat) (f : Chan → Chan) : (s.onChan i f).cores = s.cores := rfl
@[simp] theorem State.onChan_mem (i : Nat) (f : Chan → Chan) : (s.onChan i f).mem = s.mem := rfl
@[simp] theorem State.onChan_memBad (i : Nat) (f : Chan → Chan) : (s.onChan i f).memBad = s.memBad := rfl
@[simp] theorem State.onChan_pages (i : Nat) (f : Chan → Chan) : (s.onChan i f).pages = s.pages := rfl
@[simp] theorem State.onChan_faults (i : Nat) (f : Chan → Chan) : (s.onChan i f).faults = s.faults := rfl
@[simp] theorem State.onChan_window (i : Nat) (f : Chan → Chan) : (s.onChan i f).window = s.window := rfl
@[simp] theorem State.onChan_linkErr (i : Nat) (f : Chan → Chan) : (s.onChan i f).linkErr = s.linkErr := rfl
@[simp] theorem State.onChan_ee (i : Nat) (f : Chan → Chan) : (s.onChan i f).ee = s.ee := rfl
@[simp] theorem State.onChan_ports (i : Nat) (f : Chan → Chan) : (s.onChan i f).ports = s.ports := rfl
@[simp] theorem State.onChan_remotes (i : Nat) (f : Chan → Chan) : (s.onChan i f).remotes = s.remotes := rfl
@[simp] theorem State.onChan_unreachable (i : Nat) (f : Chan → Chan) : (s.onChan i f).unreachable = s.unreachable := rfl
@[simp] theorem State.onChan_cams (i : Nat) (f : Chan → Chan) : (s.onChan i f).cams = s.cams := rfl
@[simp] theorem State.onChan_pipes (i : Nat) (f : Chan → Chan) : (s.onChan i f).pipes = s.pipes := rfl
@[simp] theorem State.onChan_trigs (i : Nat) (f : Chan → Chan) : (s.onChan i f).trigs = s.trigs := rfl
@[simp] theorem State.onChan_time (i : Nat) (f : Chan → Chan) : (s.onChan i f).time = s.time := rfl
@[simp] theorem State.onChan_mclk (i : Nat) (f : Chan → Chan) : (s.onChan i f).mclk = s.mclk := rfl
@[simp] theorem State.onChan_ibi (i : Nat) (f : Chan → Chan) : (s.onChan i f).ibi = s.ibi := rfl
@[simp] theorem State.onChan_power (i : Nat) (f : Chan → Chan) : (s.onChan i f).power = s.power := rfl
@[simp] theorem State.onChan_eth (i : Nat) (f : Chan → Chan) : (s.onChan i f).eth = s.eth := rfl
@[simp] theorem State.onChan_relayed (i : Nat) (f : Chan → Chan) : (s.onChan i f).relayed = s.relayed := rfl
@[simp] theorem State.onChan_colls (i : Nat) (f : Chan → Chan) : (s.onChan i f).colls = s.colls := rfl
@[simp] theorem State.onChan_early (i : Nat) (f : Chan → Chan) : (s.onChan i f).early = s.early := rfl
@[simp] theorem State.onChan_served (i : Nat) (f : Chan → Chan) : (s.onChan i f).served = s.served := rfl
@[simp] theorem State.onChan_memStacks (i : Nat) (f : Chan → Chan) : (s.onChan i f).memStacks = s.memStacks := rfl
@[simp] theorem State.onChan_otp (i : Nat) (f : Chan → Chan) : (s.onChan i f).otp = s.otp := rfl
@[simp] theorem State.onChan_flash (i : Nat) (f : Chan → Chan) : (s.onChan i f).flash = s.flash := rfl
@[simp] theorem State.onChan_boot (i : Nat) (f : Chan → Chan) : (s.onChan i f).boot = s.boot := rfl
@[simp] theorem State.onChan_sec (i : Nat) (f : Chan → Chan) : (s.onChan i f).sec = s.sec := rfl
@[simp] theorem State.onChan_upload (i : Nat) (f : Chan → Chan) : (s.onChan i f).upload = s.upload := rfl
@[simp] theorem State.onChan_host (i : Nat) (f : Chan → Chan) : (s.onChan i f).host = s.host := rfl
@[simp] theorem State.onChan_mgmt (i : Nat) (f : Chan → Chan) : (s.onChan i f).mgmt = s.mgmt := rfl
@[simp] theorem State.onChan_inv (i : Nat) (f : Chan → Chan) : (s.onChan i f).inv = s.inv := rfl
@[simp] theorem State.onChan_pwr (i : Nat) (f : Chan → Chan) : (s.onChan i f).pwr = s.pwr := rfl
@[simp] theorem State.onChan_trip (i : Nat) (f : Chan → Chan) : (s.onChan i f).trip = s.trip := rfl
@[simp] theorem State.onChan_health (i : Nat) (f : Chan → Chan) : (s.onChan i f).health = s.health := rfl
@[simp] theorem State.onChan_pending (i : Nat) (f : Chan → Chan) : (s.onChan i f).pending = s.pending := rfl

/-! ## onCore -/

@[simp] theorem State.onCore_part (c : Fin 7) (f : Core → Core) : (s.onCore c f).part = s.part := rfl
@[simp] theorem State.onCore_free (c : Fin 7) (f : Core → Core) : (s.onCore c f).free = s.free := rfl
@[simp] theorem State.onCore_now (c : Fin 7) (f : Core → Core) : (s.onCore c f).now = s.now := rfl
@[simp] theorem State.onCore_regs (c : Fin 7) (f : Core → Core) : (s.onCore c f).regs = s.regs := rfl
@[simp] theorem State.onCore_job (c : Fin 7) (f : Core → Core) : (s.onCore c f).job = s.job := rfl
@[simp] theorem State.onCore_loader (c : Fin 7) (f : Core → Core) : (s.onCore c f).loader = s.loader := rfl
@[simp] theorem State.onCore_stream (c : Fin 7) (f : Core → Core) : (s.onCore c f).stream = s.stream := rfl
@[simp] theorem State.onCore_placement (c : Fin 7) (f : Core → Core) : (s.onCore c f).placement = s.placement := rfl
@[simp] theorem State.onCore_queues (c : Fin 7) (f : Core → Core) : (s.onCore c f).queues = s.queues := rfl
@[simp] theorem State.onCore_tokens (c : Fin 7) (f : Core → Core) : (s.onCore c f).tokens = s.tokens := rfl
@[simp] theorem State.onCore_timers (c : Fin 7) (f : Core → Core) : (s.onCore c f).timers = s.timers := rfl
@[simp] theorem State.onCore_chans (c : Fin 7) (f : Core → Core) : (s.onCore c f).chans = s.chans := rfl
@[simp] theorem State.onCore_cached (c : Fin 7) (f : Core → Core) : (s.onCore c f).cached = s.cached := rfl
@[simp] theorem State.onCore_snap (c : Fin 7) (f : Core → Core) : (s.onCore c f).snap = s.snap := rfl
@[simp] theorem State.onCore_cores (c : Fin 7) (f : Core → Core) : (s.onCore c f).cores = s.cores.set c (f s.cores[c]) := rfl
@[simp] theorem State.onCore_mem (c : Fin 7) (f : Core → Core) : (s.onCore c f).mem = s.mem := rfl
@[simp] theorem State.onCore_memBad (c : Fin 7) (f : Core → Core) : (s.onCore c f).memBad = s.memBad := rfl
@[simp] theorem State.onCore_pages (c : Fin 7) (f : Core → Core) : (s.onCore c f).pages = s.pages := rfl
@[simp] theorem State.onCore_faults (c : Fin 7) (f : Core → Core) : (s.onCore c f).faults = s.faults := rfl
@[simp] theorem State.onCore_window (c : Fin 7) (f : Core → Core) : (s.onCore c f).window = s.window := rfl
@[simp] theorem State.onCore_linkErr (c : Fin 7) (f : Core → Core) : (s.onCore c f).linkErr = s.linkErr := rfl
@[simp] theorem State.onCore_ee (c : Fin 7) (f : Core → Core) : (s.onCore c f).ee = s.ee := rfl
@[simp] theorem State.onCore_ports (c : Fin 7) (f : Core → Core) : (s.onCore c f).ports = s.ports := rfl
@[simp] theorem State.onCore_remotes (c : Fin 7) (f : Core → Core) : (s.onCore c f).remotes = s.remotes := rfl
@[simp] theorem State.onCore_unreachable (c : Fin 7) (f : Core → Core) : (s.onCore c f).unreachable = s.unreachable := rfl
@[simp] theorem State.onCore_cams (c : Fin 7) (f : Core → Core) : (s.onCore c f).cams = s.cams := rfl
@[simp] theorem State.onCore_pipes (c : Fin 7) (f : Core → Core) : (s.onCore c f).pipes = s.pipes := rfl
@[simp] theorem State.onCore_trigs (c : Fin 7) (f : Core → Core) : (s.onCore c f).trigs = s.trigs := rfl
@[simp] theorem State.onCore_time (c : Fin 7) (f : Core → Core) : (s.onCore c f).time = s.time := rfl
@[simp] theorem State.onCore_mclk (c : Fin 7) (f : Core → Core) : (s.onCore c f).mclk = s.mclk := rfl
@[simp] theorem State.onCore_ibi (c : Fin 7) (f : Core → Core) : (s.onCore c f).ibi = s.ibi := rfl
@[simp] theorem State.onCore_power (c : Fin 7) (f : Core → Core) : (s.onCore c f).power = s.power := rfl
@[simp] theorem State.onCore_eth (c : Fin 7) (f : Core → Core) : (s.onCore c f).eth = s.eth := rfl
@[simp] theorem State.onCore_relayed (c : Fin 7) (f : Core → Core) : (s.onCore c f).relayed = s.relayed := rfl
@[simp] theorem State.onCore_colls (c : Fin 7) (f : Core → Core) : (s.onCore c f).colls = s.colls := rfl
@[simp] theorem State.onCore_early (c : Fin 7) (f : Core → Core) : (s.onCore c f).early = s.early := rfl
@[simp] theorem State.onCore_served (c : Fin 7) (f : Core → Core) : (s.onCore c f).served = s.served := rfl
@[simp] theorem State.onCore_memStacks (c : Fin 7) (f : Core → Core) : (s.onCore c f).memStacks = s.memStacks := rfl
@[simp] theorem State.onCore_otp (c : Fin 7) (f : Core → Core) : (s.onCore c f).otp = s.otp := rfl
@[simp] theorem State.onCore_flash (c : Fin 7) (f : Core → Core) : (s.onCore c f).flash = s.flash := rfl
@[simp] theorem State.onCore_boot (c : Fin 7) (f : Core → Core) : (s.onCore c f).boot = s.boot := rfl
@[simp] theorem State.onCore_sec (c : Fin 7) (f : Core → Core) : (s.onCore c f).sec = s.sec := rfl
@[simp] theorem State.onCore_upload (c : Fin 7) (f : Core → Core) : (s.onCore c f).upload = s.upload := rfl
@[simp] theorem State.onCore_host (c : Fin 7) (f : Core → Core) : (s.onCore c f).host = s.host := rfl
@[simp] theorem State.onCore_mgmt (c : Fin 7) (f : Core → Core) : (s.onCore c f).mgmt = s.mgmt := rfl
@[simp] theorem State.onCore_inv (c : Fin 7) (f : Core → Core) : (s.onCore c f).inv = s.inv := rfl
@[simp] theorem State.onCore_pwr (c : Fin 7) (f : Core → Core) : (s.onCore c f).pwr = s.pwr := rfl
@[simp] theorem State.onCore_trip (c : Fin 7) (f : Core → Core) : (s.onCore c f).trip = s.trip := rfl
@[simp] theorem State.onCore_health (c : Fin 7) (f : Core → Core) : (s.onCore c f).health = s.health := rfl
@[simp] theorem State.onCore_pending (c : Fin 7) (f : Core → Core) : (s.onCore c f).pending = s.pending := rfl

/-! ## setPte -/

@[simp] theorem State.setPte_part (vp e : Nat) : (s.setPte vp e).part = s.part := rfl
@[simp] theorem State.setPte_free (vp e : Nat) : (s.setPte vp e).free = s.free := rfl
@[simp] theorem State.setPte_now (vp e : Nat) : (s.setPte vp e).now = s.now := rfl
@[simp] theorem State.setPte_regs (vp e : Nat) : (s.setPte vp e).regs = s.regs := rfl
@[simp] theorem State.setPte_job (vp e : Nat) : (s.setPte vp e).job = s.job := rfl
@[simp] theorem State.setPte_loader (vp e : Nat) : (s.setPte vp e).loader = s.loader := rfl
@[simp] theorem State.setPte_stream (vp e : Nat) : (s.setPte vp e).stream = s.stream := rfl
@[simp] theorem State.setPte_placement (vp e : Nat) : (s.setPte vp e).placement = s.placement := rfl
@[simp] theorem State.setPte_queues (vp e : Nat) : (s.setPte vp e).queues = s.queues := rfl
@[simp] theorem State.setPte_tokens (vp e : Nat) : (s.setPte vp e).tokens = s.tokens := rfl
@[simp] theorem State.setPte_timers (vp e : Nat) : (s.setPte vp e).timers = s.timers := rfl
@[simp] theorem State.setPte_chans (vp e : Nat) : (s.setPte vp e).chans = s.chans := rfl
@[simp] theorem State.setPte_cached (vp e : Nat) : (s.setPte vp e).cached = s.cached := rfl
@[simp] theorem State.setPte_snap (vp e : Nat) : (s.setPte vp e).snap = s.snap := rfl
@[simp] theorem State.setPte_cores (vp e : Nat) : (s.setPte vp e).cores = s.cores := rfl
@[simp] theorem State.setPte_mem (vp e : Nat) : (s.setPte vp e).mem = s.mem := rfl
@[simp] theorem State.setPte_memBad (vp e : Nat) : (s.setPte vp e).memBad = s.memBad := rfl
@[simp] theorem State.setPte_pages (vp e : Nat) : (s.setPte vp e).pages = put (0 : DWord) s.pages vp (BitVec.ofNat 64 e) := rfl
@[simp] theorem State.setPte_faults (vp e : Nat) : (s.setPte vp e).faults = s.faults := rfl
@[simp] theorem State.setPte_window (vp e : Nat) : (s.setPte vp e).window = s.window := rfl
@[simp] theorem State.setPte_linkErr (vp e : Nat) : (s.setPte vp e).linkErr = s.linkErr := rfl
@[simp] theorem State.setPte_ee (vp e : Nat) : (s.setPte vp e).ee = s.ee := rfl
@[simp] theorem State.setPte_ports (vp e : Nat) : (s.setPte vp e).ports = s.ports := rfl
@[simp] theorem State.setPte_remotes (vp e : Nat) : (s.setPte vp e).remotes = s.remotes := rfl
@[simp] theorem State.setPte_unreachable (vp e : Nat) : (s.setPte vp e).unreachable = s.unreachable := rfl
@[simp] theorem State.setPte_cams (vp e : Nat) : (s.setPte vp e).cams = s.cams := rfl
@[simp] theorem State.setPte_pipes (vp e : Nat) : (s.setPte vp e).pipes = s.pipes := rfl
@[simp] theorem State.setPte_trigs (vp e : Nat) : (s.setPte vp e).trigs = s.trigs := rfl
@[simp] theorem State.setPte_time (vp e : Nat) : (s.setPte vp e).time = s.time := rfl
@[simp] theorem State.setPte_mclk (vp e : Nat) : (s.setPte vp e).mclk = s.mclk := rfl
@[simp] theorem State.setPte_ibi (vp e : Nat) : (s.setPte vp e).ibi = s.ibi := rfl
@[simp] theorem State.setPte_power (vp e : Nat) : (s.setPte vp e).power = s.power := rfl
@[simp] theorem State.setPte_eth (vp e : Nat) : (s.setPte vp e).eth = s.eth := rfl
@[simp] theorem State.setPte_relayed (vp e : Nat) : (s.setPte vp e).relayed = s.relayed := rfl
@[simp] theorem State.setPte_colls (vp e : Nat) : (s.setPte vp e).colls = s.colls := rfl
@[simp] theorem State.setPte_early (vp e : Nat) : (s.setPte vp e).early = s.early := rfl
@[simp] theorem State.setPte_served (vp e : Nat) : (s.setPte vp e).served = s.served := rfl
@[simp] theorem State.setPte_memStacks (vp e : Nat) : (s.setPte vp e).memStacks = s.memStacks := rfl
@[simp] theorem State.setPte_otp (vp e : Nat) : (s.setPte vp e).otp = s.otp := rfl
@[simp] theorem State.setPte_flash (vp e : Nat) : (s.setPte vp e).flash = s.flash := rfl
@[simp] theorem State.setPte_boot (vp e : Nat) : (s.setPte vp e).boot = s.boot := rfl
@[simp] theorem State.setPte_sec (vp e : Nat) : (s.setPte vp e).sec = s.sec := rfl
@[simp] theorem State.setPte_upload (vp e : Nat) : (s.setPte vp e).upload = s.upload := rfl
@[simp] theorem State.setPte_host (vp e : Nat) : (s.setPte vp e).host = s.host := rfl
@[simp] theorem State.setPte_mgmt (vp e : Nat) : (s.setPte vp e).mgmt = s.mgmt := rfl
@[simp] theorem State.setPte_inv (vp e : Nat) : (s.setPte vp e).inv = s.inv := rfl
@[simp] theorem State.setPte_pwr (vp e : Nat) : (s.setPte vp e).pwr = s.pwr := rfl
@[simp] theorem State.setPte_trip (vp e : Nat) : (s.setPte vp e).trip = s.trip := rfl
@[simp] theorem State.setPte_health (vp e : Nat) : (s.setPte vp e).health = s.health := rfl
@[simp] theorem State.setPte_pending (vp e : Nat) : (s.setPte vp e).pending = s.pending := rfl

/-! ## onLoader -/

@[simp] theorem State.onLoader_part (f : Loader → Loader) : (s.onLoader f).part = s.part := rfl
@[simp] theorem State.onLoader_free (f : Loader → Loader) : (s.onLoader f).free = s.free := rfl
@[simp] theorem State.onLoader_now (f : Loader → Loader) : (s.onLoader f).now = s.now := rfl
@[simp] theorem State.onLoader_regs (f : Loader → Loader) : (s.onLoader f).regs = s.regs := rfl
@[simp] theorem State.onLoader_job (f : Loader → Loader) : (s.onLoader f).job = s.job := rfl
@[simp] theorem State.onLoader_loader (f : Loader → Loader) : (s.onLoader f).loader = f s.loader := rfl
@[simp] theorem State.onLoader_stream (f : Loader → Loader) : (s.onLoader f).stream = s.stream := rfl
@[simp] theorem State.onLoader_placement (f : Loader → Loader) : (s.onLoader f).placement = s.placement := rfl
@[simp] theorem State.onLoader_queues (f : Loader → Loader) : (s.onLoader f).queues = s.queues := rfl
@[simp] theorem State.onLoader_tokens (f : Loader → Loader) : (s.onLoader f).tokens = s.tokens := rfl
@[simp] theorem State.onLoader_timers (f : Loader → Loader) : (s.onLoader f).timers = s.timers := rfl
@[simp] theorem State.onLoader_chans (f : Loader → Loader) : (s.onLoader f).chans = s.chans := rfl
@[simp] theorem State.onLoader_cached (f : Loader → Loader) : (s.onLoader f).cached = s.cached := rfl
@[simp] theorem State.onLoader_snap (f : Loader → Loader) : (s.onLoader f).snap = s.snap := rfl
@[simp] theorem State.onLoader_cores (f : Loader → Loader) : (s.onLoader f).cores = s.cores := rfl
@[simp] theorem State.onLoader_mem (f : Loader → Loader) : (s.onLoader f).mem = s.mem := rfl
@[simp] theorem State.onLoader_memBad (f : Loader → Loader) : (s.onLoader f).memBad = s.memBad := rfl
@[simp] theorem State.onLoader_pages (f : Loader → Loader) : (s.onLoader f).pages = s.pages := rfl
@[simp] theorem State.onLoader_faults (f : Loader → Loader) : (s.onLoader f).faults = s.faults := rfl
@[simp] theorem State.onLoader_window (f : Loader → Loader) : (s.onLoader f).window = s.window := rfl
@[simp] theorem State.onLoader_linkErr (f : Loader → Loader) : (s.onLoader f).linkErr = s.linkErr := rfl
@[simp] theorem State.onLoader_ee (f : Loader → Loader) : (s.onLoader f).ee = s.ee := rfl
@[simp] theorem State.onLoader_ports (f : Loader → Loader) : (s.onLoader f).ports = s.ports := rfl
@[simp] theorem State.onLoader_remotes (f : Loader → Loader) : (s.onLoader f).remotes = s.remotes := rfl
@[simp] theorem State.onLoader_unreachable (f : Loader → Loader) : (s.onLoader f).unreachable = s.unreachable := rfl
@[simp] theorem State.onLoader_cams (f : Loader → Loader) : (s.onLoader f).cams = s.cams := rfl
@[simp] theorem State.onLoader_pipes (f : Loader → Loader) : (s.onLoader f).pipes = s.pipes := rfl
@[simp] theorem State.onLoader_trigs (f : Loader → Loader) : (s.onLoader f).trigs = s.trigs := rfl
@[simp] theorem State.onLoader_time (f : Loader → Loader) : (s.onLoader f).time = s.time := rfl
@[simp] theorem State.onLoader_mclk (f : Loader → Loader) : (s.onLoader f).mclk = s.mclk := rfl
@[simp] theorem State.onLoader_ibi (f : Loader → Loader) : (s.onLoader f).ibi = s.ibi := rfl
@[simp] theorem State.onLoader_power (f : Loader → Loader) : (s.onLoader f).power = s.power := rfl
@[simp] theorem State.onLoader_eth (f : Loader → Loader) : (s.onLoader f).eth = s.eth := rfl
@[simp] theorem State.onLoader_relayed (f : Loader → Loader) : (s.onLoader f).relayed = s.relayed := rfl
@[simp] theorem State.onLoader_colls (f : Loader → Loader) : (s.onLoader f).colls = s.colls := rfl
@[simp] theorem State.onLoader_early (f : Loader → Loader) : (s.onLoader f).early = s.early := rfl
@[simp] theorem State.onLoader_served (f : Loader → Loader) : (s.onLoader f).served = s.served := rfl
@[simp] theorem State.onLoader_memStacks (f : Loader → Loader) : (s.onLoader f).memStacks = s.memStacks := rfl
@[simp] theorem State.onLoader_otp (f : Loader → Loader) : (s.onLoader f).otp = s.otp := rfl
@[simp] theorem State.onLoader_flash (f : Loader → Loader) : (s.onLoader f).flash = s.flash := rfl
@[simp] theorem State.onLoader_boot (f : Loader → Loader) : (s.onLoader f).boot = s.boot := rfl
@[simp] theorem State.onLoader_sec (f : Loader → Loader) : (s.onLoader f).sec = s.sec := rfl
@[simp] theorem State.onLoader_upload (f : Loader → Loader) : (s.onLoader f).upload = s.upload := rfl
@[simp] theorem State.onLoader_host (f : Loader → Loader) : (s.onLoader f).host = s.host := rfl
@[simp] theorem State.onLoader_mgmt (f : Loader → Loader) : (s.onLoader f).mgmt = s.mgmt := rfl
@[simp] theorem State.onLoader_inv (f : Loader → Loader) : (s.onLoader f).inv = s.inv := rfl
@[simp] theorem State.onLoader_pwr (f : Loader → Loader) : (s.onLoader f).pwr = s.pwr := rfl
@[simp] theorem State.onLoader_trip (f : Loader → Loader) : (s.onLoader f).trip = s.trip := rfl
@[simp] theorem State.onLoader_health (f : Loader → Loader) : (s.onLoader f).health = s.health := rfl
@[simp] theorem State.onLoader_pending (f : Loader → Loader) : (s.onLoader f).pending = s.pending := rfl

/-! ## onInv -/

@[simp] theorem State.onInv_part (f : Invar → Invar) : (s.onInv f).part = s.part := rfl
@[simp] theorem State.onInv_free (f : Invar → Invar) : (s.onInv f).free = s.free := rfl
@[simp] theorem State.onInv_now (f : Invar → Invar) : (s.onInv f).now = s.now := rfl
@[simp] theorem State.onInv_regs (f : Invar → Invar) : (s.onInv f).regs = s.regs := rfl
@[simp] theorem State.onInv_job (f : Invar → Invar) : (s.onInv f).job = s.job := rfl
@[simp] theorem State.onInv_loader (f : Invar → Invar) : (s.onInv f).loader = s.loader := rfl
@[simp] theorem State.onInv_stream (f : Invar → Invar) : (s.onInv f).stream = s.stream := rfl
@[simp] theorem State.onInv_placement (f : Invar → Invar) : (s.onInv f).placement = s.placement := rfl
@[simp] theorem State.onInv_queues (f : Invar → Invar) : (s.onInv f).queues = s.queues := rfl
@[simp] theorem State.onInv_tokens (f : Invar → Invar) : (s.onInv f).tokens = s.tokens := rfl
@[simp] theorem State.onInv_timers (f : Invar → Invar) : (s.onInv f).timers = s.timers := rfl
@[simp] theorem State.onInv_chans (f : Invar → Invar) : (s.onInv f).chans = s.chans := rfl
@[simp] theorem State.onInv_cached (f : Invar → Invar) : (s.onInv f).cached = s.cached := rfl
@[simp] theorem State.onInv_snap (f : Invar → Invar) : (s.onInv f).snap = s.snap := rfl
@[simp] theorem State.onInv_cores (f : Invar → Invar) : (s.onInv f).cores = s.cores := rfl
@[simp] theorem State.onInv_mem (f : Invar → Invar) : (s.onInv f).mem = s.mem := rfl
@[simp] theorem State.onInv_memBad (f : Invar → Invar) : (s.onInv f).memBad = s.memBad := rfl
@[simp] theorem State.onInv_pages (f : Invar → Invar) : (s.onInv f).pages = s.pages := rfl
@[simp] theorem State.onInv_faults (f : Invar → Invar) : (s.onInv f).faults = s.faults := rfl
@[simp] theorem State.onInv_window (f : Invar → Invar) : (s.onInv f).window = s.window := rfl
@[simp] theorem State.onInv_linkErr (f : Invar → Invar) : (s.onInv f).linkErr = s.linkErr := rfl
@[simp] theorem State.onInv_ee (f : Invar → Invar) : (s.onInv f).ee = s.ee := rfl
@[simp] theorem State.onInv_ports (f : Invar → Invar) : (s.onInv f).ports = s.ports := rfl
@[simp] theorem State.onInv_remotes (f : Invar → Invar) : (s.onInv f).remotes = s.remotes := rfl
@[simp] theorem State.onInv_unreachable (f : Invar → Invar) : (s.onInv f).unreachable = s.unreachable := rfl
@[simp] theorem State.onInv_cams (f : Invar → Invar) : (s.onInv f).cams = s.cams := rfl
@[simp] theorem State.onInv_pipes (f : Invar → Invar) : (s.onInv f).pipes = s.pipes := rfl
@[simp] theorem State.onInv_trigs (f : Invar → Invar) : (s.onInv f).trigs = s.trigs := rfl
@[simp] theorem State.onInv_time (f : Invar → Invar) : (s.onInv f).time = s.time := rfl
@[simp] theorem State.onInv_mclk (f : Invar → Invar) : (s.onInv f).mclk = s.mclk := rfl
@[simp] theorem State.onInv_ibi (f : Invar → Invar) : (s.onInv f).ibi = s.ibi := rfl
@[simp] theorem State.onInv_power (f : Invar → Invar) : (s.onInv f).power = s.power := rfl
@[simp] theorem State.onInv_eth (f : Invar → Invar) : (s.onInv f).eth = s.eth := rfl
@[simp] theorem State.onInv_relayed (f : Invar → Invar) : (s.onInv f).relayed = s.relayed := rfl
@[simp] theorem State.onInv_colls (f : Invar → Invar) : (s.onInv f).colls = s.colls := rfl
@[simp] theorem State.onInv_early (f : Invar → Invar) : (s.onInv f).early = s.early := rfl
@[simp] theorem State.onInv_served (f : Invar → Invar) : (s.onInv f).served = s.served := rfl
@[simp] theorem State.onInv_memStacks (f : Invar → Invar) : (s.onInv f).memStacks = s.memStacks := rfl
@[simp] theorem State.onInv_otp (f : Invar → Invar) : (s.onInv f).otp = s.otp := rfl
@[simp] theorem State.onInv_flash (f : Invar → Invar) : (s.onInv f).flash = s.flash := rfl
@[simp] theorem State.onInv_boot (f : Invar → Invar) : (s.onInv f).boot = s.boot := rfl
@[simp] theorem State.onInv_sec (f : Invar → Invar) : (s.onInv f).sec = s.sec := rfl
@[simp] theorem State.onInv_upload (f : Invar → Invar) : (s.onInv f).upload = s.upload := rfl
@[simp] theorem State.onInv_host (f : Invar → Invar) : (s.onInv f).host = s.host := rfl
@[simp] theorem State.onInv_mgmt (f : Invar → Invar) : (s.onInv f).mgmt = s.mgmt := rfl
@[simp] theorem State.onInv_inv (f : Invar → Invar) : (s.onInv f).inv = f s.inv := rfl
@[simp] theorem State.onInv_pwr (f : Invar → Invar) : (s.onInv f).pwr = s.pwr := rfl
@[simp] theorem State.onInv_trip (f : Invar → Invar) : (s.onInv f).trip = s.trip := rfl
@[simp] theorem State.onInv_health (f : Invar → Invar) : (s.onInv f).health = s.health := rfl
@[simp] theorem State.onInv_pending (f : Invar → Invar) : (s.onInv f).pending = s.pending := rfl

/-! ## onTime -/

@[simp] theorem State.onTime_part (f : TimeUnit → TimeUnit) : (s.onTime f).part = s.part := rfl
@[simp] theorem State.onTime_free (f : TimeUnit → TimeUnit) : (s.onTime f).free = s.free := rfl
@[simp] theorem State.onTime_now (f : TimeUnit → TimeUnit) : (s.onTime f).now = s.now := rfl
@[simp] theorem State.onTime_regs (f : TimeUnit → TimeUnit) : (s.onTime f).regs = s.regs := rfl
@[simp] theorem State.onTime_job (f : TimeUnit → TimeUnit) : (s.onTime f).job = s.job := rfl
@[simp] theorem State.onTime_loader (f : TimeUnit → TimeUnit) : (s.onTime f).loader = s.loader := rfl
@[simp] theorem State.onTime_stream (f : TimeUnit → TimeUnit) : (s.onTime f).stream = s.stream := rfl
@[simp] theorem State.onTime_placement (f : TimeUnit → TimeUnit) : (s.onTime f).placement = s.placement := rfl
@[simp] theorem State.onTime_queues (f : TimeUnit → TimeUnit) : (s.onTime f).queues = s.queues := rfl
@[simp] theorem State.onTime_tokens (f : TimeUnit → TimeUnit) : (s.onTime f).tokens = s.tokens := rfl
@[simp] theorem State.onTime_timers (f : TimeUnit → TimeUnit) : (s.onTime f).timers = s.timers := rfl
@[simp] theorem State.onTime_chans (f : TimeUnit → TimeUnit) : (s.onTime f).chans = s.chans := rfl
@[simp] theorem State.onTime_cached (f : TimeUnit → TimeUnit) : (s.onTime f).cached = s.cached := rfl
@[simp] theorem State.onTime_snap (f : TimeUnit → TimeUnit) : (s.onTime f).snap = s.snap := rfl
@[simp] theorem State.onTime_cores (f : TimeUnit → TimeUnit) : (s.onTime f).cores = s.cores := rfl
@[simp] theorem State.onTime_mem (f : TimeUnit → TimeUnit) : (s.onTime f).mem = s.mem := rfl
@[simp] theorem State.onTime_memBad (f : TimeUnit → TimeUnit) : (s.onTime f).memBad = s.memBad := rfl
@[simp] theorem State.onTime_pages (f : TimeUnit → TimeUnit) : (s.onTime f).pages = s.pages := rfl
@[simp] theorem State.onTime_faults (f : TimeUnit → TimeUnit) : (s.onTime f).faults = s.faults := rfl
@[simp] theorem State.onTime_window (f : TimeUnit → TimeUnit) : (s.onTime f).window = s.window := rfl
@[simp] theorem State.onTime_linkErr (f : TimeUnit → TimeUnit) : (s.onTime f).linkErr = s.linkErr := rfl
@[simp] theorem State.onTime_ee (f : TimeUnit → TimeUnit) : (s.onTime f).ee = s.ee := rfl
@[simp] theorem State.onTime_ports (f : TimeUnit → TimeUnit) : (s.onTime f).ports = s.ports := rfl
@[simp] theorem State.onTime_remotes (f : TimeUnit → TimeUnit) : (s.onTime f).remotes = s.remotes := rfl
@[simp] theorem State.onTime_unreachable (f : TimeUnit → TimeUnit) : (s.onTime f).unreachable = s.unreachable := rfl
@[simp] theorem State.onTime_cams (f : TimeUnit → TimeUnit) : (s.onTime f).cams = s.cams := rfl
@[simp] theorem State.onTime_pipes (f : TimeUnit → TimeUnit) : (s.onTime f).pipes = s.pipes := rfl
@[simp] theorem State.onTime_trigs (f : TimeUnit → TimeUnit) : (s.onTime f).trigs = s.trigs := rfl
@[simp] theorem State.onTime_time (f : TimeUnit → TimeUnit) : (s.onTime f).time = f s.time := rfl
@[simp] theorem State.onTime_mclk (f : TimeUnit → TimeUnit) : (s.onTime f).mclk = s.mclk := rfl
@[simp] theorem State.onTime_ibi (f : TimeUnit → TimeUnit) : (s.onTime f).ibi = s.ibi := rfl
@[simp] theorem State.onTime_power (f : TimeUnit → TimeUnit) : (s.onTime f).power = s.power := rfl
@[simp] theorem State.onTime_eth (f : TimeUnit → TimeUnit) : (s.onTime f).eth = s.eth := rfl
@[simp] theorem State.onTime_relayed (f : TimeUnit → TimeUnit) : (s.onTime f).relayed = s.relayed := rfl
@[simp] theorem State.onTime_colls (f : TimeUnit → TimeUnit) : (s.onTime f).colls = s.colls := rfl
@[simp] theorem State.onTime_early (f : TimeUnit → TimeUnit) : (s.onTime f).early = s.early := rfl
@[simp] theorem State.onTime_served (f : TimeUnit → TimeUnit) : (s.onTime f).served = s.served := rfl
@[simp] theorem State.onTime_memStacks (f : TimeUnit → TimeUnit) : (s.onTime f).memStacks = s.memStacks := rfl
@[simp] theorem State.onTime_otp (f : TimeUnit → TimeUnit) : (s.onTime f).otp = s.otp := rfl
@[simp] theorem State.onTime_flash (f : TimeUnit → TimeUnit) : (s.onTime f).flash = s.flash := rfl
@[simp] theorem State.onTime_boot (f : TimeUnit → TimeUnit) : (s.onTime f).boot = s.boot := rfl
@[simp] theorem State.onTime_sec (f : TimeUnit → TimeUnit) : (s.onTime f).sec = s.sec := rfl
@[simp] theorem State.onTime_upload (f : TimeUnit → TimeUnit) : (s.onTime f).upload = s.upload := rfl
@[simp] theorem State.onTime_host (f : TimeUnit → TimeUnit) : (s.onTime f).host = s.host := rfl
@[simp] theorem State.onTime_mgmt (f : TimeUnit → TimeUnit) : (s.onTime f).mgmt = s.mgmt := rfl
@[simp] theorem State.onTime_inv (f : TimeUnit → TimeUnit) : (s.onTime f).inv = s.inv := rfl
@[simp] theorem State.onTime_pwr (f : TimeUnit → TimeUnit) : (s.onTime f).pwr = s.pwr := rfl
@[simp] theorem State.onTime_trip (f : TimeUnit → TimeUnit) : (s.onTime f).trip = s.trip := rfl
@[simp] theorem State.onTime_health (f : TimeUnit → TimeUnit) : (s.onTime f).health = s.health := rfl
@[simp] theorem State.onTime_pending (f : TimeUnit → TimeUnit) : (s.onTime f).pending = s.pending := rfl

/-! ## onSec -/

@[simp] theorem State.onSec_part (f : Security → Security) : (s.onSec f).part = s.part := rfl
@[simp] theorem State.onSec_free (f : Security → Security) : (s.onSec f).free = s.free := rfl
@[simp] theorem State.onSec_now (f : Security → Security) : (s.onSec f).now = s.now := rfl
@[simp] theorem State.onSec_regs (f : Security → Security) : (s.onSec f).regs = s.regs := rfl
@[simp] theorem State.onSec_job (f : Security → Security) : (s.onSec f).job = s.job := rfl
@[simp] theorem State.onSec_loader (f : Security → Security) : (s.onSec f).loader = s.loader := rfl
@[simp] theorem State.onSec_stream (f : Security → Security) : (s.onSec f).stream = s.stream := rfl
@[simp] theorem State.onSec_placement (f : Security → Security) : (s.onSec f).placement = s.placement := rfl
@[simp] theorem State.onSec_queues (f : Security → Security) : (s.onSec f).queues = s.queues := rfl
@[simp] theorem State.onSec_tokens (f : Security → Security) : (s.onSec f).tokens = s.tokens := rfl
@[simp] theorem State.onSec_timers (f : Security → Security) : (s.onSec f).timers = s.timers := rfl
@[simp] theorem State.onSec_chans (f : Security → Security) : (s.onSec f).chans = s.chans := rfl
@[simp] theorem State.onSec_cached (f : Security → Security) : (s.onSec f).cached = s.cached := rfl
@[simp] theorem State.onSec_snap (f : Security → Security) : (s.onSec f).snap = s.snap := rfl
@[simp] theorem State.onSec_cores (f : Security → Security) : (s.onSec f).cores = s.cores := rfl
@[simp] theorem State.onSec_mem (f : Security → Security) : (s.onSec f).mem = s.mem := rfl
@[simp] theorem State.onSec_memBad (f : Security → Security) : (s.onSec f).memBad = s.memBad := rfl
@[simp] theorem State.onSec_pages (f : Security → Security) : (s.onSec f).pages = s.pages := rfl
@[simp] theorem State.onSec_faults (f : Security → Security) : (s.onSec f).faults = s.faults := rfl
@[simp] theorem State.onSec_window (f : Security → Security) : (s.onSec f).window = s.window := rfl
@[simp] theorem State.onSec_linkErr (f : Security → Security) : (s.onSec f).linkErr = s.linkErr := rfl
@[simp] theorem State.onSec_ee (f : Security → Security) : (s.onSec f).ee = s.ee := rfl
@[simp] theorem State.onSec_ports (f : Security → Security) : (s.onSec f).ports = s.ports := rfl
@[simp] theorem State.onSec_remotes (f : Security → Security) : (s.onSec f).remotes = s.remotes := rfl
@[simp] theorem State.onSec_unreachable (f : Security → Security) : (s.onSec f).unreachable = s.unreachable := rfl
@[simp] theorem State.onSec_cams (f : Security → Security) : (s.onSec f).cams = s.cams := rfl
@[simp] theorem State.onSec_pipes (f : Security → Security) : (s.onSec f).pipes = s.pipes := rfl
@[simp] theorem State.onSec_trigs (f : Security → Security) : (s.onSec f).trigs = s.trigs := rfl
@[simp] theorem State.onSec_time (f : Security → Security) : (s.onSec f).time = s.time := rfl
@[simp] theorem State.onSec_mclk (f : Security → Security) : (s.onSec f).mclk = s.mclk := rfl
@[simp] theorem State.onSec_ibi (f : Security → Security) : (s.onSec f).ibi = s.ibi := rfl
@[simp] theorem State.onSec_power (f : Security → Security) : (s.onSec f).power = s.power := rfl
@[simp] theorem State.onSec_eth (f : Security → Security) : (s.onSec f).eth = s.eth := rfl
@[simp] theorem State.onSec_relayed (f : Security → Security) : (s.onSec f).relayed = s.relayed := rfl
@[simp] theorem State.onSec_colls (f : Security → Security) : (s.onSec f).colls = s.colls := rfl
@[simp] theorem State.onSec_early (f : Security → Security) : (s.onSec f).early = s.early := rfl
@[simp] theorem State.onSec_served (f : Security → Security) : (s.onSec f).served = s.served := rfl
@[simp] theorem State.onSec_memStacks (f : Security → Security) : (s.onSec f).memStacks = s.memStacks := rfl
@[simp] theorem State.onSec_otp (f : Security → Security) : (s.onSec f).otp = s.otp := rfl
@[simp] theorem State.onSec_flash (f : Security → Security) : (s.onSec f).flash = s.flash := rfl
@[simp] theorem State.onSec_boot (f : Security → Security) : (s.onSec f).boot = s.boot := rfl
@[simp] theorem State.onSec_sec (f : Security → Security) : (s.onSec f).sec = f s.sec := rfl
@[simp] theorem State.onSec_upload (f : Security → Security) : (s.onSec f).upload = s.upload := rfl
@[simp] theorem State.onSec_host (f : Security → Security) : (s.onSec f).host = s.host := rfl
@[simp] theorem State.onSec_mgmt (f : Security → Security) : (s.onSec f).mgmt = s.mgmt := rfl
@[simp] theorem State.onSec_inv (f : Security → Security) : (s.onSec f).inv = s.inv := rfl
@[simp] theorem State.onSec_pwr (f : Security → Security) : (s.onSec f).pwr = s.pwr := rfl
@[simp] theorem State.onSec_trip (f : Security → Security) : (s.onSec f).trip = s.trip := rfl
@[simp] theorem State.onSec_health (f : Security → Security) : (s.onSec f).health = s.health := rfl
@[simp] theorem State.onSec_pending (f : Security → Security) : (s.onSec f).pending = s.pending := rfl

/-! ## settle -/

@[simp] theorem State.settle_part : (s.settle t).part = s.part := rfl
@[simp] theorem State.settle_free : (s.settle t).free = t.free := rfl
@[simp] theorem State.settle_now : (s.settle t).now = t.now := rfl
@[simp] theorem State.settle_regs : (s.settle t).regs = t.regs := rfl
@[simp] theorem State.settle_job : (s.settle t).job = t.job := rfl
@[simp] theorem State.settle_loader : (s.settle t).loader = t.loader := rfl
@[simp] theorem State.settle_stream : (s.settle t).stream = t.stream := rfl
@[simp] theorem State.settle_placement : (s.settle t).placement = t.placement := rfl
@[simp] theorem State.settle_queues : (s.settle t).queues = t.queues := rfl
@[simp] theorem State.settle_tokens : (s.settle t).tokens = t.tokens := rfl
@[simp] theorem State.settle_timers : (s.settle t).timers = t.timers := rfl
@[simp] theorem State.settle_chans : (s.settle t).chans = t.chans := rfl
@[simp] theorem State.settle_cached : (s.settle t).cached = t.cached := rfl
@[simp] theorem State.settle_snap : (s.settle t).snap = t.snap := rfl
@[simp] theorem State.settle_cores : (s.settle t).cores = t.cores := rfl
@[simp] theorem State.settle_mem : (s.settle t).mem = t.mem := rfl
@[simp] theorem State.settle_memBad : (s.settle t).memBad = t.memBad := rfl
@[simp] theorem State.settle_pages : (s.settle t).pages = t.pages := rfl
@[simp] theorem State.settle_faults : (s.settle t).faults = t.faults := rfl
@[simp] theorem State.settle_window : (s.settle t).window = t.window := rfl
@[simp] theorem State.settle_linkErr : (s.settle t).linkErr = t.linkErr := rfl
@[simp] theorem State.settle_ee : (s.settle t).ee = t.ee := rfl
@[simp] theorem State.settle_ports : (s.settle t).ports = t.ports := rfl
@[simp] theorem State.settle_remotes : (s.settle t).remotes = t.remotes := rfl
@[simp] theorem State.settle_unreachable : (s.settle t).unreachable = t.unreachable := rfl
@[simp] theorem State.settle_cams : (s.settle t).cams = t.cams := rfl
@[simp] theorem State.settle_pipes : (s.settle t).pipes = t.pipes := rfl
@[simp] theorem State.settle_trigs : (s.settle t).trigs = t.trigs := rfl
@[simp] theorem State.settle_time : (s.settle t).time = t.time := rfl
@[simp] theorem State.settle_mclk : (s.settle t).mclk = t.mclk := rfl
@[simp] theorem State.settle_ibi : (s.settle t).ibi = t.ibi := rfl
@[simp] theorem State.settle_power : (s.settle t).power = t.power := rfl
@[simp] theorem State.settle_eth : (s.settle t).eth = t.eth := rfl
@[simp] theorem State.settle_relayed : (s.settle t).relayed = t.relayed := rfl
@[simp] theorem State.settle_colls : (s.settle t).colls = t.colls := rfl
@[simp] theorem State.settle_early : (s.settle t).early = t.early := rfl
@[simp] theorem State.settle_served : (s.settle t).served = t.served := rfl
@[simp] theorem State.settle_memStacks : (s.settle t).memStacks = t.memStacks := rfl
@[simp] theorem State.settle_otp : (s.settle t).otp = s.otp.burn t.otp := rfl
@[simp] theorem State.settle_flash : (s.settle t).flash = t.flash := rfl
@[simp] theorem State.settle_boot : (s.settle t).boot = { t.boot with inReset := s.boot.inReset } := rfl
@[simp] theorem State.settle_sec : (s.settle t).sec = t.sec := rfl
@[simp] theorem State.settle_upload : (s.settle t).upload = t.upload := rfl
@[simp] theorem State.settle_host : (s.settle t).host = t.host := rfl
@[simp] theorem State.settle_mgmt : (s.settle t).mgmt = t.mgmt := rfl
@[simp] theorem State.settle_inv : (s.settle t).inv = t.inv := rfl
@[simp] theorem State.settle_pwr : (s.settle t).pwr = t.pwr := rfl
@[simp] theorem State.settle_trip : (s.settle t).trip = t.trip := rfl
@[simp] theorem State.settle_health : (s.settle t).health = t.health := rfl
@[simp] theorem State.settle_pending : (s.settle t).pending = s.pending := rfl

end Sys2Proof.Machine
end

