-- ==== Sys2Proof/Laws/Queue.lean ====
section
/-! SUPPORT. Laws/Queue.lean: what acting, starting a command of a queue and settling do, said once. -/

namespace Sys2Proof.Machine

open Sys2Proof

/-- Out of reset a command does what its function says, settled. -/
theorem State.act_awake {s : State} (h : s.boot.inReset = false) (f : State → State) : s.act f = .next (s.settle (f s)) := by
  simp [State.act, h]

/-- Held in reset a command does nothing. -/
theorem State.act_held {s : State} (h : s.boot.inReset = true) (f : State → State) : s.act f = .next s := by
  simp [State.act, h]

/-- What a settled command answers. -/
theorem State.act_next {s t : State} {f : State → State} (h : s.act f = .next t) :
    (s.boot.inReset = true ∧ t = s) ∨ (s.boot.inReset = false ∧ t = s.settle (f s)) := by
  unfold State.act at h
  cases hr : s.boot.inReset with
  | true => rw [hr] at h; simp at h; exact .inl ⟨rfl, h.symm⟩
  | false => rw [hr] at h; simp at h; exact .inr ⟨rfl, h.symm⟩

/-- The parts of `starts`. -/
theorem State.starts_iff {s : State} {q : QueueId} {c : Command} : s.starts q c = true ↔
    s.boot.inReset = false ∧ s.live q = true ∧ s.fetch q = some c ∧ s.blocked q c.hdr c.body = none ∧ s.readsPending q c.body = false ∧ c.hdr.timed = false := by
  simp [State.starts, and_assoc]

/-- A command that starts is begun and does its work. -/
theorem State.issue_starts {s : State} {q : QueueId} {c : Command} (h : s.starts q c = true) (w : Holder → State → State) :
    s.issue q c w = w (s.holder q) (s.begun q c) := by
  obtain ⟨_, h2, h3, h4, _, h5⟩ := State.starts_iff.mp h
  simp [State.issue, h2, h3, h4, h5, State.startCmd, State.begun, State.holder]
  rfl

/-- A command that starts meets no pending mark. -/
theorem State.holdsRead_starts {s : State} {q : QueueId} {c : Command} (h : s.starts q c = true) : s.holdsRead q c = false := by
  obtain ⟨_, _, _, _, h6, _⟩ := State.starts_iff.mp h
  simp [State.holdsRead, h6]

/-- A command of a queue that presents itself runs as its work. -/
theorem State.runsAs_present {s : State} {i : Instr} {q : QueueId} {h : Header} {b : Body} {w : Holder → State → State} {after : State → State}
    (hx : exec i s = s.act (fun s => after (s.present q h b w))) : s.runsAs i q ⟨h, b⟩ w after := by
  intro hs
  rw [hx, State.act_awake (State.starts_iff.mp hs).1, State.present, State.holdsRead_starts hs, if_neg (by simp), State.issue_starts hs]

/-- The record that a started command leaves its queue. -/
theorem State.begun_queues (s : State) (q : QueueId) (c : Command) :
    s.begun q c = { s with queues := put QState.start s.queues (queueKey q) ((s.queue q).moved c s.now id) } := by
  simp [State.begun, State.begin, State.setQueue, QState.moved]

/-- A record with an entry in progress is not the record of an idle queue. -/
theorem QState.moved_ne (k : QState) (c : Command) (now : Nat) (f : InProg → InProg) : k.moved c now f ≠ QState.start := by
  intro h
  have := congrArg (fun k : QState => k.prog.length) h
  simp [QState.moved, QState.start] at this

/-- Another queue's record after one is set. -/
theorem State.queue_setQueue_other {s : State} {q p : QueueId} {v : QState} (hv : v ≠ QState.start) (h : queueKey p ≠ queueKey q) :
    (s.setQueue q v).queue p = s.queue p := look_put_other hv _ h

/-- A record that is set is read back. -/
theorem State.queue_setQueue_self {s : State} {q : QueueId} {v : QState} (hv : v ≠ QState.start) : (s.setQueue q v).queue q = v :=
  look_put_self hv _ _

/-- The queue's record of a command begun. -/
theorem State.queue_begun (s : State) (q : QueueId) (c : Command) : (s.begun q c).queue q = (s.queue q).moved c s.now id := by
  rw [State.begun_queues]; exact look_put_self (QState.moved_ne _ _ _ _) _ _

/-- A record that has moved moves no further when its entry is changed. -/
theorem QState.moved_map (k : QState) (c : Command) (now : Nat) (f g : InProg → InProg) (hf : ∀ e, (f e).seq = e.seq) :
    { k.moved c now f with prog := (k.moved c now f).prog.map (fun e => if e.seq == k.seq then g e else e) } = k.moved c now (g ∘ f) := by
  simp only [QState.moved, List.map_map]
  congr 1
  apply List.map_congr_left
  intro e _
  simp only [Function.comp]
  by_cases h : e.seq = k.seq <;> simp [h, hf]

/-- A record set twice. -/
theorem State.setQueue_setQueue {s : State} {q : QueueId} {v w : QState} (hv : v ≠ QState.start) : (s.setQueue q v).setQueue q w = s.setQueue q w := by
  simp [State.setQueue, put_put hv]

/-- The state of a command begun, as its queue's record. -/
theorem State.begun_eq (s : State) (q : QueueId) (c : Command) : s.begun q c = s.setQueue q ((s.queue q).moved c s.now id) := by
  rw [State.begun_queues]; rfl

/-- A record set is read back, and setting it again replaces it: what `onQueue` does to it. -/
theorem State.onQueue_setQueue {s : State} {q : QueueId} {v : QState} (hv : v ≠ QState.start) (f : QState → QState) :
    (s.setQueue q v).onQueue q f = s.setQueue q (f v) := by
  rw [State.onQueue, State.queue_setQueue_self hv, State.setQueue_setQueue hv]

/-- The entry of the command that has just begun, changed. -/
theorem State.onProg_moved (s : State) (q : QueueId) (k : QState) (c : Command) (now : Nat) (f g : InProg → InProg) (hf : ∀ e, (f e).seq = e.seq) :
    (s.setQueue q (k.moved c now f)).onProg ⟨q, k.seq⟩ g = s.setQueue q (k.moved c now (g ∘ f)) := by
  rw [State.onProg, State.onQueue_setQueue (QState.moved_ne _ _ _ _), QState.moved_map k c now f g hf]

/-- The command that has just begun has its work finished. -/
theorem State.worked_begun (s : State) (q : QueueId) (c : Command) :
    (s.begun q c).worked (s.holder q) = s.setQueue q ((s.queue q).moved c s.now InProg.finished) := by
  rw [State.begun_eq]
  exact State.onProg_moved s q (s.queue q) c s.now id InProg.finished (fun _ => rfl)

/-- Fuses burnt with what they say are as they were. -/
theorem Otp.burn_self (o : Otp) : o.burn o = o := by
  have hg : ∀ g : Generation, g.burn g = g := by
    intro g; unfold Generation.burn; split
    · rfl
    · simp
  have hl : ∀ l : List Nat, burnList l l = l := by
    intro l; simp [burnList]
  have ht : ∀ (f : Nat → Nat → Nat) (t : Table Nat), burnTable f t t = t := by intro f t; simp [burnTable]
  cases o
  simp only [Otp.burn, hg, hl, ht, Nat.max_self, Bool.or_self]
  congr 1
  apply Vector.ext
  intro i hi
  rw [Vector.getElem_ofFn]
  apply Vector.ext
  intro j hj
  rw [Vector.getElem_ofFn]
  rfl

/-- Settling changes nothing where a command left the part, the queue of commands, the fuses and RESET_N alone. -/
theorem State.settle_same {s t : State} (h1 : t.part = s.part) (h2 : t.pending = s.pending) (h3 : t.otp = s.otp)
    (h4 : t.boot.inReset = s.boot.inReset) : s.settle t = t := by
  unfold State.settle
  rw [h3, Otp.burn_self, ← h1, ← h2, ← h3, ← h4]

/-- The entry of the command that has just begun. -/
theorem State.prog_moved (s : State) (q : QueueId) (k : QState) (c : Command) (now : Nat) (f : InProg → InProg) (hf : ∀ e, (f e).seq = e.seq) :
    (s.setQueue q (k.moved c now f)).prog ⟨q, k.seq⟩ = some (f ⟨k.seq, k.pc, now, c, false, false, false, Mover.idle⟩) := by
  rw [State.prog, State.queue_setQueue_self (QState.moved_ne _ _ _ _)]
  simp [QState.moved, hf]

/-- What is set beside a queue's record leaves that record where it was: changing the record is setting it. -/
theorem State.onQueue_with {s : State} {q : QueueId} {v : QState} {m : Table QState} (hv : v ≠ QState.start)
    (hq : s.queues = put QState.start m (queueKey q) v) (f : QState → QState) :
    s.onQueue q f = { s with queues := put QState.start m (queueKey q) (f v) } := by
  have : s.queue q = v := by rw [State.queue, hq]; exact look_put_self hv _ _
  rw [State.onQueue, this, State.setQueue, hq, put_put hv]

/-- Finishing the work of a command that has begun, whatever else has been set. -/
theorem State.worked_with {s : State} {q : QueueId} {k : QState} {c : Command} {now : Nat} {m : Table QState}
    (hq : s.queues = put QState.start m (queueKey q) (k.moved c now id)) :
    s.worked ⟨q, k.seq⟩ = { s with queues := put QState.start m (queueKey q) (k.moved c now InProg.finished) } := by
  rw [State.worked, State.onProg, State.onQueue_with (QState.moved_ne _ _ _ _) hq]
  have := QState.moved_map k c now id InProg.finished (fun _ => rfl)
  simp only [Function.comp_id] at this
  exact congrArg (fun v => ({ s with queues := put QState.start m (queueKey q) v } : State)) this

/-- A record of a queue that has started a command is not the record of an idle queue. -/
theorem QState.ne_start {v : QState} (h : v.seq ≠ 0) : v ≠ QState.start := by rintro rfl; exact h rfl

end Sys2Proof.Machine
end

