-- ==== Sys2Proof/Laws/Exec.lean ====
section
/-! SUPPORT. Laws/Exec.lean: what any command can do to the block, said once: but for the three events of RESET_N and PWR_OK, a command acts. -/

namespace Sys2Proof.Machine

open Sys2Proof

/-- Every command but the events of RESET_N and PWR_OK acts by a function of the state. -/
theorem exec_acts (i : Instr) (hi : isResetEvent i = false) : ∃ f : State → State, ∀ s, exec i s = s.act f := by
  cases i
  case resetAssert => cases hi
  case pwrOkFall => cases hi
  case resetRelease => cases hi
  all_goals exact ⟨_, fun _ => rfl⟩

/-- The next state of a command: the same state in reset, a settled one otherwise. -/
theorem exec_next {i : Instr} {s t : State} (hi : isResetEvent i = false) (h : exec i s = .next t) :
    (s.boot.inReset = true ∧ t = s) ∨ (s.boot.inReset = false ∧ ∃ u, t = s.settle u) := by
  obtain ⟨f, hf⟩ := exec_acts i hi
  rw [hf s] at h
  rcases State.act_next h with h | ⟨h1, h2⟩
  · exact .inl h
  · exact .inr ⟨h1, _, h2⟩

/-- The three events of RESET_N and PWR_OK. -/
theorem resetEvent_cases {i : Instr} (hi : isResetEvent i = true) :
    i = .resetAssert ∨ i = .pwrOkFall ∨ ∃ a b c d, i = .resetRelease a b c d := by
  cases i
  case resetAssert => exact .inl rfl
  case pwrOkFall => exact .inr (.inl rfl)
  case resetRelease a b c d => exact .inr (.inr ⟨a, b, c, d, rfl⟩)
  all_goals cases hi

end Sys2Proof.Machine
end

