-- ==== Sys2Proof/Laws/Commands.lean ====
section
/-! SUPPORT. Laws/Commands.lean: what a command answers out of reset, and what JUMP and a command done at once do, said once. -/

namespace Sys2Proof.Machine

open Sys2Proof

/-- Out of reset a command answers its function, settled. -/
theorem exec_awake {i : Instr} {s : State} {f : State → State} (hx : exec i s = s.act f) (h1 : s.boot.inReset = false) : exec i s = .next (s.settle (f s)) := by
  rw [hx, State.act_awake h1]

/-- Out of reset a command answers what its function gives, settled. -/
theorem exec_answers {i : Instr} {s t : State} {f : State → State} (hx : exec i s = s.act f) (h1 : s.boot.inReset = false) (ht : f s = t) : exec i s = .next (s.settle t) := by
  rw [exec_awake hx h1, ht]

/-- Out of reset a command whose function leaves the part, the queue of commands, the fuses and RESET_N alone answers what it gives. -/
theorem exec_answers_plain {i : Instr} {s t : State} {f : State → State} (hx : exec i s = s.act f) (h1 : s.boot.inReset = false) (ht : f s = t)
   (a : t.part = s.part) (b : t.pending = s.pending) (c : t.otp = s.otp) (d : t.boot = s.boot) : exec i s = .next t := by
  rw [exec_awake hx h1, ht, State.settle_same a b c (by rw [d])]

/-- What JUMP does to its queue and its slot, before it completes (R65). -/
theorem jumpWork_eq (s : State) (q : QueueId) (k : QState) (o : JumpOps) (slot : Option Nat) (hs : k.slots[o.slot]? = some slot) (n : Nat) (hk : k.seq ≠ 0) :
    jumpWork o ⟨q, n⟩ (s.setQueue q k) =
    (s.setQueue q (if (jumpSlot o.count slot).1 then { k with slots := k.slots.setIfInBounds o.slot (jumpSlot o.count slot).2, pc := o.target, ended := false, prog := k.prog.map (fun e => if e.seq == n then { e with taken := true } else e)}
      else { k with slots := k.slots.setIfInBounds o.slot (jumpSlot o.count slot).2 })).completeCmd ⟨q, n⟩ := by
  unfold jumpWork
  simp only [State.queue_setQueue_self (QState.ne_start hk), hs]
  congr 1
  split
  · rw [State.setQueue_setQueue (QState.ne_start hk), State.onProg]; exact State.onQueue_setQueue (QState.ne_start (v := { k with slots := k.slots.setIfInBounds o.slot (jumpSlot o.count slot).2, pc := o.target, ended := false }) hk) _
  · rw [State.setQueue_setQueue (QState.ne_start hk)]

/-- The participants of a barrier depend on no queue record. -/
theorem participants_set (s : State) (q : QueueId) (b : Nat) (k : QState) (n : Nat) (a : Arrivals) : ((s.setQueue q k).setArrivals n a).participants q b = s.participants q b := rfl

/-- Arrivals that are set are read back. -/
theorem arrivals_set (s : State) (k : Nat) (a : Arrivals) (h : a ≠ Arrivals.none) : (s.setArrivals k a).arrivals k = a := look_put_self h _ _

/-- A command begun and finished at once is past. -/
theorem State.begun_worked (s : State) (q : QueueId) (c : Command) : (s.begun q c).worked (s.holder q) = s.past q c := State.worked_begun s q c

/-- The reference tick of a command that has just begun is the present. -/
theorem State.refTick_begun (s : State) (q : QueueId) (c : Command) : (s.begun q c).refTick (s.holder q) = s.now := by
  rw [State.refTick, State.begun_eq, State.holder, State.prog_moved s q (s.queue q) c s.now id (fun _ => rfl)]; rfl

/-- A command of a queue whose work changes what its record is not. -/
theorem exec_past {i : Instr} {s : State} {q : QueueId} {c : Command} {w : Holder → State → State} (hx : exec i s = s.act (fun s => s.present q c.hdr c.body w)) (hs : s.starts q c = true) {t : State}
   (hw : w (s.holder q) (s.begun q c) = t) (h1 : t.part = s.part) (h2 : t.pending = s.pending) (h3 : t.otp = s.otp) (h4 : t.boot = s.boot) : exec i s = .next t := by
  have := State.runsAs_present (s := s) (i := i) (after := id) (w := w) hx hs
  rw [this, id, hw, State.settle_same h1 h2 h3 (by rw [h4])]

end Sys2Proof.Machine
end

