-- ==== Sys2Proof/Laws/Core.lean ====
section
/-! SUPPORT. Laws/Core.lean: what the operations of a command that works in one scratchpad change, said once for each. -/

namespace Sys2Proof.Machine

open Sys2Proof

/-- What the command has changed so far, from the state `s` before it: `coreOnly` but that its work need not be finished (`b`). -/
structure State.inCore (s : State) (q : QueueId) (c : Command) (b : Bool) (t : State) : Prop where
  rest : t = { s with cores := t.cores, regs := t.regs, queues := t.queues, job := { s.job with markNo := t.job.markNo } }
  others : ∀ n : Fin 7, n ≠ coreOf q.unit → t.cores[n] = s.cores[n]
  power : ∀ n : Fin 7, t.cores[n].on = s.cores[n].on
  regs : canon (0 : Word) s.regs = true → canon (0 : Word) t.regs = true ∧
    ∀ k, unitCell q.unit k = false → look (0 : Word) t.regs k = look (0 : Word) s.regs k
  queue : ∃ marks, t.queues = put QState.start s.queues (queueKey q)
    { (s.queue q).moved c s.now (if b then InProg.finished else id) with marks := (s.queue q).marks ++ marks }

variable {s t : State} {q : QueueId} {c : Command} {b : Bool}

/-- A finished command has changed what `coreOnly` says. -/
theorem State.inCore.done (h : s.inCore q c true t) : s.coreOnly t q c := ⟨h.rest, h.others, h.power, h.regs, h.queue⟩

/-- A command that has begun. -/
theorem State.inCore_begun (s : State) (q : QueueId) (c : Command) : s.inCore q c false (s.begun q c) := by
  rw [State.begun_queues]
  exact ⟨rfl, fun _ _ => rfl, fun _ => rfl, fun h => ⟨h, fun _ _ => rfl⟩, [], by simp [QState.moved]⟩

/-- A register of the unit set. -/
theorem State.inCore.setReg (h : s.inCore q c b t) {k : Nat} (hk : unitCell q.unit k = true) (v : Nat) : s.inCore q c b (t.setReg k v) := by
  refine ⟨?_, h.others, h.power, fun hc => ⟨canon_put (h.regs hc).1 _ _, fun j hj => ?_⟩, h.queue⟩
  · have := h.rest; rw [this]; rfl
  · show look (0 : Word) (put (0 : Word) t.regs k _) j = _
    rw [look_put_canon (h.regs hc).1, if_neg (by rintro rfl; rw [hk] at hj; cases hj)]
    exact (h.regs hc).2 j hj

/-- A counter of the unit. -/
theorem State.inCore.count (h : s.inCore q c b t) {k : Nat} (hk : unitCell q.unit k = true) (n : Nat) : s.inCore q c b (t.count k n) := by
  unfold State.count; split
  · exact h
  · exact h.setReg hk _

/-- Handshakes of the array. -/
theorem State.inCore.addSteps (h : s.inCore q c b t) (n : Nat) : s.inCore q c b (t.addSteps (coreBlk (coreOf q.unit)) n) := by
  unfold State.addSteps
  refine State.inCore.setReg (State.inCore.setReg h ?_ _) ?_ _
  · simp [unitCell]
  · simp [unitCell]

/-- Another value for the unit's scratchpad. -/
theorem State.inCore.onCore (h : s.inCore q c b t) (k : Core) (hk : k.on = t.cores[coreOf q.unit].on) :
    s.inCore q c b { t with cores := t.cores.set (coreOf q.unit) k } := by
  refine ⟨?_, fun n hn => ?_, fun n => ?_, h.regs, h.queue⟩
  · have := h.rest; rw [this]
  · show (t.cores.set (coreOf q.unit) k)[n] = _
    rw [Fin.getElem_fin, Vector.getElem_set_ne _ _ (fun h => hn (Fin.ext h.symm))]
    exact h.others n hn
  · show (t.cores.set (coreOf q.unit) k)[n].on = _
    by_cases hn : n = coreOf q.unit
    · subst hn; rw [Fin.getElem_fin, Vector.getElem_set_self, hk]; exact h.power _
    · rw [Fin.getElem_fin, Vector.getElem_set_ne _ _ (fun h => hn (Fin.ext h.symm))]; exact h.power n

/-- The unit's scratchpad changed. -/
theorem State.inCore.changed (h : s.inCore q c b t) (f : Core → Core) (hf : (f t.cores[coreOf q.unit]).on = t.cores[coreOf q.unit].on) :
    s.inCore q c b (t.onCore (coreOf q.unit) f) := h.onCore _ hf

/-- Writes keep a core's power. -/
theorem Core.write_on (k : Core) (h : Option Holder) (e : Bool) (w : LineWrite) : (k.write h e w).1.on = k.on := rfl

/-- Writes keep a core's power. -/
theorem Core.writes_on (k : Core) (h : Option Holder) (e : Bool) (ws : List LineWrite) : (k.writes h e ws).1.on = k.on := by
  induction ws generalizing k with
  | nil => rfl
  | cons w ws ih => exact ih _

/-- Lines written. -/
theorem State.inCore.writeLines (h : s.inCore q c b t) (x : Option Holder) (e : Bool) (ws : List LineWrite) :
    s.inCore q c b (t.writeLines (coreOf q.unit) x e ws) := by
  unfold State.writeLines
  refine State.inCore.count (h.onCore _ (Core.writes_on _ _ _ _)) ?_ _
  simp [unitCell]

/-- Lines read. -/
theorem State.inCore.touchLines (h : s.inCore q c b t) (ls : List Nat) : s.inCore q c b (t.touchLines (coreOf q.unit) ls) := by
  induction ls generalizing t with
  | nil => exact h
  | cons l ls ih =>
    unfold State.touchLines
    apply ih
    split
    · exact h
    · refine State.inCore.count (State.inCore.count (h.changed _ rfl) ?_ _) ?_ _
      · split <;> simp [unitCell]
      · simp [unitCell]

/-- Marks noted. -/
theorem State.inCore.noteMarks (h : s.inCore q c b t) (p f : Bool) : s.inCore q c b (t.noteMarks q p f) := by
  unfold State.noteMarks
  dsimp only
  split
  · obtain ⟨marks, hm⟩ := h.queue
    rw [State.onQueue_with (QState.ne_start (by simp [QState.moved])) hm]
    refine ⟨?_, h.others, h.power, h.regs, marks ++ [(t.job.markNo + 1, b2n f + 2 * b2n p)], ?_⟩
    · have := h.rest; rw [this]
    · simp
  · exact h

/-- The work finished. -/
theorem State.inCore.worked (h : s.inCore q c b t) : s.inCore q c true (t.worked (s.holder q)) := by
  obtain ⟨marks, hm⟩ := h.queue
  unfold State.worked State.onProg
  rw [State.onQueue_with (q := (s.holder q).queue) (QState.ne_start (by simp [QState.moved])) hm]
  refine ⟨?_, h.others, h.power, h.regs, marks, ?_⟩
  · have := h.rest; rw [this]
  · have := QState.moved_map (s.queue q) c s.now (if b then InProg.finished else id) InProg.finished (by intro e; split <;> rfl)
    have e2 : (InProg.finished ∘ (if b then InProg.finished else id)) = InProg.finished := by split <;> rfl
    rw [e2] at this
    have := congrArg (fun k : QState => { k with marks := (s.queue q).marks ++ marks }) this
    exact congrArg (put QState.start s.queues (queueKey q)) this

/-! ## Lines after writes -/

/-- The line that a whole-line write leaves where nothing collides (R99, R122-R124). -/
def LineWrite.result (w : LineWrite) (old : Line) : Line :=
  { bits := w.data, tag := match w.tag with | some t => BitVec.ofNat 4 t | none => old.tag,
    poison := w.poison, collided := w.collided, flagged := w.flagged, upset := 0, errs := 0 }

/-- Line `l` has no claim of a command but those of `h`, and those have lost nothing. -/
def Core.freeFor (c : Core) (h : Holder) (l : Nat) : Prop :=
  ∀ x ∈ c.claims, x.line = l → x.holder = h ∧ x.lost = 0 ∧ x.collided = false

/-- A claim that a write leaves lies on the line it lay on, and a write of another line leaves it as it is. -/
theorem Claim.after_line {x y : Claim} {h : Option Holder} {src l : Nat} {r b : Bool} {n : Nat} (hy : x.after h src l r b n = some y) :
    y.line = x.line ∧ (x.line ≠ l → y = x) := by
  unfold Claim.after at hy
  by_cases hl : x.line = l
  · subst hl
    refine ⟨?_, fun h => absurd rfl h⟩
    split at hy
    · cases hy
    · split at hy
      · cases hy; rfl
      · split at hy
        · cases hy; rfl
        · split at hy <;> (cases hy; rfl)
  · simp [hl] at hy
    subst hy
    exact ⟨rfl, fun _ => rfl⟩

/-- A write of one line leaves the others, keeps the canonical form, and leaves the claims of the others. -/
theorem Core.write_other {k : Core} (hk : canon Line.zero k.lines = true) (h : Holder) (e : Bool) (w : LineWrite) {l : Nat} (hl : w.line ≠ l) :
    (k.write (some h) e w).1.line l = k.line l ∧ (k.freeFor h l → (k.write (some h) e w).1.freeFor h l) := by
  refine ⟨?_, ?_⟩
  · show look Line.zero (put Line.zero k.lines w.line _) l = _
    rw [look_put_canon hk, if_neg (Ne.symm hl)]; rfl
  · intro hf x hx hxl
    simp only [Core.write, List.mem_cons, List.mem_filterMap] at hx
    rcases hx with rfl | ⟨y, hy, hx⟩
    · exact absurd hxl hl
    · obtain ⟨h1, h2⟩ := Claim.after_line hx
      have : y.line = l := h1 ▸ hxl
      have := h2 (by rw [this]; exact Ne.symm hl)
      subst this
      exact hf x hy hxl

/-- A write keeps the canonical form of the lines. -/
theorem Core.write_canon {k : Core} (hk : canon Line.zero k.lines = true) (h : Option Holder) (e : Bool) (w : LineWrite) :
    canon Line.zero (k.write h e w).1.lines = true := canon_put hk _ _

/-- No other requester holds a line that is free for a command. -/
theorem Core.freeFor_rival {k : Core} {h : Holder} {l : Nat} (hf : k.freeFor h l) (src : Nat) : k.rival (some h) src l = none := by
  rw [Core.rival, List.find?_eq_none]
  intro x hx
  by_cases hl : x.line = l
  · simp [Claim.kin, (hf x hx hl).1]
  · simp [hl]

/-- The command's own claim of a line that is free for it has lost nothing and not collided. -/
theorem Core.freeFor_own {k : Core} {h : Holder} {l : Nat} (hf : k.freeFor h l) {o : Claim} (ho : k.ownClaim (some h) l = some o) :
    o.lost = 0 ∧ o.collided = false := by
  have h1 := List.mem_of_find?_eq_some ho
  have h2 := List.find?_some ho
  simp at h2
  exact (hf o h1 h2.1).2

/-- A claim of a line that nobody holds takes it. -/
@[simp] theorem beatsHolder_none (e : Bool) : beatsHolder e none = true := rfl

/-- A claim shares no byte with nobody's. -/
@[simp] theorem overlapWith_none (m : Nat) : overlapWith m none = 0 := rfl

/-- A whole-line write of a line that is free for its command. -/
theorem Core.write_self {k : Core} (hk : canon Line.zero k.lines = true) (h : Holder) (e : Bool) (w : LineWrite) (hf : k.freeFor h w.line)
    (hm : w.mask = fullMask) :
    (k.write (some h) e w).1.line w.line = w.result (k.line w.line) ∧ (k.write (some h) e w).1.freeFor h w.line := by
  have hr := Core.freeFor_rival hf w.src
  refine ⟨?_, ?_⟩
  · show look Line.zero (put Line.zero k.lines w.line _) w.line = _
    rw [look_put_canon hk, if_pos rfl]
    cases ho : k.ownClaim (some h) w.line with
    | none =>
      simp only [hr, hm, mergeBytes, LineWrite.result]
      cases w.tag <;> simp
    | some o =>
      simp only [hr, hm, mergeBytes, LineWrite.result, (Core.freeFor_own hf ho).1, (Core.freeFor_own hf ho).2]
      cases w.tag <;> simp
  · intro x hx hxl
    simp only [Core.write, List.mem_cons, List.mem_filterMap] at hx
    rcases hx with rfl | ⟨y, hy, hx⟩
    · cases ho : k.ownClaim (some h) w.line with
      | none => simp [hr]
      | some o => simp [hr, (Core.freeFor_own hf ho).1, (Core.freeFor_own hf ho).2]
    · obtain ⟨h1, _⟩ := Claim.after_line hx
      have hyl : y.line = w.line := h1 ▸ hxl
      have hh := (hf y hy hyl).1
      simp [Claim.after, hyl, hh] at hx

/-- Lines that no write of a list names stay. -/
theorem Core.writes_other {k : Core} (hk : canon Line.zero k.lines = true) (h : Holder) (e : Bool) (ws : List LineWrite) {l : Nat}
    (hl : ∀ w ∈ ws, w.line ≠ l) : (k.writes (some h) e ws).1.line l = k.line l := by
  induction ws generalizing k with
  | nil => rfl
  | cons w ws ih =>
    have := ih (Core.write_canon hk (some h) e w) (fun w' hw => hl w' (List.mem_cons_of_mem _ hw))
    exact this.trans (Core.write_other hk h e w (hl w List.mem_cons_self)).1

/-- Writes keep the canonical form of the lines. -/
theorem Core.writes_canon {k : Core} (hk : canon Line.zero k.lines = true) (h : Option Holder) (e : Bool) (ws : List LineWrite) :
    canon Line.zero (k.writes h e ws).1.lines = true := by
  induction ws generalizing k with
  | nil => exact hk
  | cons w ws ih => exact ih (Core.write_canon hk h e w)

/-- The last of several whole-line writes of a line that is free for their command decides it, but for the tag of a write without one. -/
theorem Core.writes_self {k : Core} (hk : canon Line.zero k.lines = true) (h : Holder) (e : Bool) (ws : List LineWrite) (l : Nat) (hf : k.freeFor h l)
    (hm : ∀ w ∈ ws, w.line = l → w.mask = fullMask) (n : Nat) (w : LineWrite) (hn : ws[n]? = some w) (hl : w.line = l)
    (hlast : ∀ m w', n < m → ws[m]? = some w' → w'.line ≠ l) :
    ∃ old : Line, (k.writes (some h) e ws).1.line l = w.result old ∧ (w.tag = none → (∀ w' ∈ ws, w'.line = l → w'.tag = none) → old.tag = (k.line l).tag) := by
  induction ws generalizing k n with
  | nil => cases hn
  | cons v ws ih =>
    have hc := Core.write_canon hk (some h) e v
    have hf' : (k.write (some h) e v).1.freeFor h l := by
      by_cases hv : v.line = l
      · subst hv; exact (Core.write_self hk h e v hf (hm v List.mem_cons_self rfl)).2
      · exact (Core.write_other hk h e v hv).2 hf
    cases n with
    | zero =>
      cases hn
      have h1 := Core.writes_other hc h e ws (l := l) (by
        intro w' hw'
        obtain ⟨m, hm'⟩ := List.getElem?_of_mem hw'
        exact hlast (m + 1) w' (by omega) hm')
      refine ⟨k.line l, ?_, fun _ _ => rfl⟩
      subst hl
      exact h1.trans (Core.write_self hk h e w hf (hm w List.mem_cons_self rfl)).1
    | succ n =>
      obtain ⟨old, h1, h2⟩ := ih hc hf' (fun w' hw' => hm w' (List.mem_cons_of_mem _ hw')) n hn
        (fun m w' hlt hw' => hlast (m + 1) w' (by omega) hw')
      refine ⟨old, h1, fun ht hall => ?_⟩
      rw [h2 ht (fun w' hw' => hall w' (List.mem_cons_of_mem _ hw'))]
      by_cases hv : v.line = l
      · have := (Core.write_self hk h e v (hv ▸ hf) (hm v List.mem_cons_self hv)).1
        rw [hv] at this
        rw [this, LineWrite.result, hall v List.mem_cons_self hv]
      · rw [(Core.write_other hk h e v hv).1]

end Sys2Proof.Machine
end

