-- ==== Sys2Proof/Laws/CoreWork.lean ====
section
/-! SUPPORT. Laws/CoreWork.lean: what whole commands of arrays and vector units change in their scratchpad. -/

namespace Sys2Proof.Machine

open Sys2Proof

variable {s t : State} {q : QueueId} {c : Command} {b : Bool}

/-- Either of two branches. -/
theorem State.inCore.ite {p : Prop} [Decidable p] {x y : State} (hx : p → s.inCore q c b x) (hy : ¬p → s.inCore q c b y) : s.inCore q c b (if p then x else y) := by
  split
  · exact hx ‹_›
  · exact hy ‹_›

/-- Rows written out. -/
theorem State.inCore.vecOut (h : s.inCore q c b t) (reads : List Nat) (line w : Nat) (rows) : s.inCore q c true (t.vecOut (s.holder q) reads line w rows) := by
  unfold State.vecOut
  dsimp only
  have h1 : ∀ n, s.inCore q c b (((t.touchLines (coreOf q.unit) reads).count (coreBlk (coreOf q.unit) + 0x31C) n).noteMarks q
      (t.cores[coreOf q.unit].marks reads).1 (t.cores[coreOf q.unit].marks reads).2) :=
    fun n => ((h.touchLines reads).count (by simp [unitCell]) n).noteMarks _ _
  refine State.inCore.ite (fun _ => ?_) (fun _ => ?_)
  · exact ((h1 _).writeLines _ _ _).worked
  · refine State.inCore.worked (State.inCore.count (State.inCore.count (State.inCore.count (State.inCore.count ((h1 _).writeLines _ _ _) ?_ _) ?_ _) ?_ _) ?_ _)
    all_goals simp [unitCell, State.holder]

/-- A vector command run. -/
theorem State.inCore.runVec (h : s.inCore q c b t) (o x y f) : s.inCore q c true (t.runVec (s.holder q) o x y f) := by
  unfold State.runVec
  split
  · exact State.inCore.vecOut h _ _ _ _
  · exact h.worked

/-- Results drained. -/
theorem State.inCore.drain (h : s.inCore q c b t) (r v n) : s.inCore q c true (t.drain (s.holder q) r v n) := by
  unfold State.drain
  dsimp only
  apply State.inCore.worked
  have h1 := (h.writeLines (some (s.holder q)) true (tileWrites r.tile r.m r.n (if r.poisoned || r.skew || r.bad then (fun i j => if r.accumulate then t.cores[coreOf q.unit].acc r.tile i j else 0) else v) (r.poisoned || r.skew || r.bad) r.flagged)).noteMarks r.poisoned r.flagged
  have h2 : ∀ u, s.inCore q c b u → s.inCore q c b (if r.skew = true then u.count (cScaleSkew q.unit) 1 else u) := by
    intro u hu; split
    · exact hu.count (by simp [unitCell]) _
    · exact hu
  have h3 : ∀ (p : Bool) u, s.inCore q c b u → s.inCore q c b (if p = true then u.count (cPoisonedTile q.unit) 1 else (u.count (coreBlk (coreOf q.unit) + 0x20C) n).addSteps (coreBlk (coreOf q.unit)) r.steps) := by
    intro p u hu; split
    · exact hu.count (by simp [unitCell]) _
    · exact (hu.count (by simp [unitCell]) _).addSteps _
  have h4 : ∀ (m : Nat) u, s.inCore q c b u → s.inCore q c b (if r.float = true then u.count (coreBlk (coreOf q.unit) + 0x210) m else u) := by
    intro m u hu; split
    · exact hu.count (by simp [unitCell]) _
    · exact hu
  exact h4 _ _ (h3 _ _ (h2 _ h1))

/-- A matrix product. -/
theorem State.inCore.matmul (h : s.inCore q c b t) (x o) : s.inCore q c true (matmulWork x o (s.holder q) t) := by
  have hm : ∀ ls n r v k, s.inCore q c true
      (((t.touchLines (coreOf q.unit) ls).count (coreBlk (coreOf q.unit) + 0x31C) n).drain (s.holder q) r v k) :=
    fun ls n r v k => State.inCore.drain ((h.touchLines ls).count (by simp [unitCell]) n) r v k
  unfold matmulWork
  split
  · exact hm _ _ _ _ _
  · exact h.worked

/-- An output of no elements. -/
theorem State.inCore.empty (h : s.inCore q c b t) : s.inCore q c true ((t.count (cEmptyOutput (coreBlk (coreOf q.unit))) 1).worked (s.holder q)) :=
  (h.count (by simp [unitCell, cEmptyOutput]) _).worked

/-- A convolution. -/
theorem State.inCore.conv (h : s.inCore q c b t) (x o) : s.inCore q c true (convWork x o (s.holder q) t) := by
  have hf : ∀ r, s.inCore q c true ((t.count (cWdescBad (coreBlk (coreOf q.unit))) 1).drain (s.holder q) r (fun _ _ => 0) 0) :=
    fun r => State.inCore.drain (h.count (by simp [unitCell, cWdescBad]) _) _ _ _
  have hd : ∀ ls r v k, s.inCore q c true ((t.touchLines (coreOf q.unit) ls).drain (s.holder q) r v k) :=
    fun ls r v k => State.inCore.drain (h.touchLines ls) r v k
  unfold convWork
  generalize Fmt.ofCode o.fmtB = y
  extract_lets u c0 d m n acc accInt badRun fail
  generalize Fmt.ofCode d.fmtA = z
  cases y <;> cases z
  · exact hf _
  · exact hf _
  · exact hf _
  · exact State.inCore.ite (fun _ => hf _) (fun _ => State.inCore.ite (fun _ => State.inCore.empty h) (fun _ => hd _ _ _ _))

/-- Maps written out. -/
theorem State.inCore.mapOut (h : s.inCore q c b t) (reads elems w) : s.inCore q c true (t.mapOut (s.holder q) reads elems w) := by
  unfold State.mapOut
  dsimp only
  have h1 := (h.touchLines reads).noteMarks (t.cores[coreOf q.unit].marks reads).1 (t.cores[coreOf q.unit].marks reads).2
  split
  · exact (h1.writeLines _ _ _).worked
  · refine State.inCore.worked (State.inCore.count (State.inCore.count (State.inCore.count (h1.writeLines _ _ _) ?_ _) ?_ _) ?_ _)
    all_goals simp [unitCell, State.holder]

/-- Maps with an uncorrectable operand. -/
theorem State.inCore.mapFail (h : s.inCore q c b t) (bits w) : s.inCore q c true (t.mapFail (s.holder q) bits w) := by
  unfold State.mapFail
  exact ((h.writeLines _ _ _).count (by simp [unitCell, cWdescBad, State.holder]) _).worked

/-- Pooling. -/
theorem State.inCore.vpool (h : s.inCore q c b t) (o) : s.inCore q c true (vpoolWork o (s.holder q) t) := by
  unfold vpoolWork
  generalize Fmt.ofCode o.fmtOut = y
  cases y
  · exact State.inCore.mapFail h _ _
  · exact State.inCore.ite (fun _ => State.inCore.mapFail h _ _) (fun _ => State.inCore.ite (fun _ => State.inCore.empty h) (fun _ => State.inCore.mapOut h _ _ _))

/-- Pooling backward. -/
theorem State.inCore.vpoolBwd (h : s.inCore q c b t) (o) : s.inCore q c true (vpoolBwdWork o (s.holder q) t) := by
  unfold vpoolBwdWork
  generalize Fmt.ofCode o.fmtOut = y
  cases y
  · exact State.inCore.mapFail h _ _
  · exact State.inCore.ite (fun _ => State.inCore.mapFail h _ _) (fun _ => State.inCore.ite (fun _ => State.inCore.empty h) (fun _ => State.inCore.mapOut h _ _ _))

/-- Quantising. -/
theorem State.inCore.quantise (h : s.inCore q c b t) (j d) : s.inCore q c true (t.quantise (s.holder q) j d) := by
  unfold State.quantise
  have h1 : ∀ l, s.inCore q c b ((t.touchLines (coreOf q.unit) l).noteMarks q (t.cores[coreOf q.unit].marks l).1 (t.cores[coreOf q.unit].marks l).2) := fun l => (h.touchLines l).noteMarks _ _
  refine State.inCore.ite (fun _ => ?_) (fun _ => State.inCore.ite (fun _ => ?_) (fun _ => ?_))
  · exact ((h1 _).writeLines _ _ _).worked
  · exact (((h1 _).writeLines _ _ _).count (by simp [unitCell, State.holder]) _).worked
  · refine State.inCore.worked (b := b) ?_
    iterate 6 (refine State.inCore.count (b := b) ?_ (by simp [unitCell, State.holder]) _)
    have hi : ∀ (p : Bool) u ws, s.inCore q c b u → s.inCore q c b (if p = true then u.writeLines (coreOf q.unit) (some (s.holder q)) true ws else u) := by
      intro p u ws hu; split
      · exact hu.writeLines _ _ _
      · exact hu
    exact hi _ _ _ (hi _ _ _ (((h1 _).writeLines _ _ _).writeLines _ _ _))

/-- Dequantising. -/
theorem State.inCore.vdequant (h : s.inCore q c b t) (o) : s.inCore q c true (vdequantWork o (s.holder q) t) := by
  unfold vdequantWork
  split
  · refine State.inCore.ite (fun _ => ?_) (fun _ => State.inCore.ite (fun _ => ?_) (fun _ => ?_))
    · exact (((h.touchLines _).writeLines _ _ _).count (by simp [unitCell, State.holder]) _).worked
    · exact State.inCore.vecOut h _ _ _ _
    · exact ((State.inCore.vecOut h _ _ _ _).writeLines _ _ _).count (by simp [unitCell, State.holder]) _
  · exact h.worked

/-- Finishing leaves the cores. -/
theorem worked_cores (s : State) (h : Holder) : (s.worked h).cores = s.cores := rfl

/-- Beginning leaves the cores. -/
theorem begun_cores (s : State) (q : QueueId) (c) : (s.begun q c).cores = s.cores := by rw [State.begun_queues]

/-- A core set is read back. -/
theorem cores_set_get (v : Vector Core 7) (k : Fin 7) (x : Core) : (v.set k x)[k] = x := by simp

/-- Counting leaves the cores. -/
theorem count_cores (s : State) (k n : Nat) : (s.count k n).cores = s.cores := by unfold State.count; split <;> rfl

/-- Lines written. -/
theorem writeLines_core (s : State) (k : Fin 7) (h e ws) : (s.writeLines k h e ws).cores[k] = (s.cores[k].writes h e ws).1 := by
  unfold State.writeLines
  dsimp only
  rw [count_cores]
  simp

/-- Reading lines leaves data, tags and claims; upsets are corrected or poisoned (R129). -/
theorem touchLines_line (k : Fin 7) (ls : List Nat) (s : State) (hc : canon Line.zero s.cores[k].lines = true) (l : Nat) :
    canon Line.zero (s.touchLines k ls).cores[k].lines = true ∧ (s.touchLines k ls).cores[k].claims = s.cores[k].claims ∧
    ((s.touchLines k ls).cores[k].line l).bits = (s.cores[k].line l).bits ∧ ((s.touchLines k ls).cores[k].line l).tag = (s.cores[k].line l).tag ∧
        ((s.cores[k].line l).upset = 0 → (s.touchLines k ls).cores[k].line l = s.cores[k].line l) := by
  induction ls generalizing s with
  | nil => exact ⟨hc, rfl, rfl, rfl, fun _ => rfl⟩
  | cons a ls ih =>
    unfold State.touchLines
    have key : ∀ (s1 : State), (s1.cores[k].claims = s.cores[k].claims ∧ (s1.cores[k].lines = s.cores[k].lines ∨ ∃ y : Line, y.bits = (s.cores[k].line a).bits ∧ y.tag = (s.cores[k].line a).tag ∧ (s.cores[k].line a).upset ≠ 0 ∧ s1.cores[k].lines = put Line.zero s.cores[k].lines a y)) →
      canon Line.zero (s1.touchLines k ls).cores[k].lines = true ∧ (s1.touchLines k ls).cores[k].claims = s.cores[k].claims ∧
    ((s1.touchLines k ls).cores[k].line l).bits = (s.cores[k].line l).bits ∧ ((s1.touchLines k ls).cores[k].line l).tag = (s.cores[k].line l).tag ∧
        ((s.cores[k].line l).upset = 0 → (s1.touchLines k ls).cores[k].line l = s.cores[k].line l) := by
      intro s1 h1
      obtain ⟨hcl, h1⟩ := h1
      have hc1 : canon Line.zero s1.cores[k].lines = true := by
        rcases h1 with h1 | ⟨y, _, _, _, h1⟩
        · rw [h1]; exact hc
        · rw [h1]; exact canon_put hc _ _
      obtain ⟨i1, i2, i3, i4, i5⟩ := ih s1 hc1
      have hl : (s1.cores[k].line l).bits = (s.cores[k].line l).bits ∧ (s1.cores[k].line l).tag = (s.cores[k].line l).tag ∧ ((s.cores[k].line l).upset = 0 → s1.cores[k].line l = s.cores[k].line l) := by
        rcases h1 with h1 | ⟨y, hy1, hy2, hy3, h1⟩
        · unfold Core.line; rw [h1]; exact ⟨rfl, rfl, fun _ => rfl⟩
        · have : s1.cores[k].line l = if l = a then y else s.cores[k].line l := by
            unfold Core.line; rw [h1, look_put_canon hc]
          rw [this]
          by_cases hla : l = a
          · subst hla; rw [if_pos rfl]; exact ⟨hy1, hy2, fun h => absurd h hy3⟩
          · rw [if_neg hla]; exact ⟨rfl, rfl, fun _ => rfl⟩
      refine ⟨i1, i2.trans hcl, i3.trans hl.1, i4.trans hl.2.1, fun h => ?_⟩
      rw [i5 (by rw [hl.2.2 h]; exact h), hl.2.2 h]
    dsimp only
    split
    · exact key s ⟨rfl, .inl rfl⟩
    · next h0 =>
      refine key _ ⟨?_, .inr ⟨(s.cores[k].line a).seen (s.cores[k].claims.any (fun y => y.line == a)), rfl, rfl, h0, ?_⟩⟩
      · rw [count_cores, count_cores]; simp [State.onCore]
      · rw [count_cores, count_cores]; simp [State.onCore]

/-- Noting marks leaves the cores. -/
theorem noteMarks_cores (s : State) (q p f) : (s.noteMarks q p f).cores = s.cores := by unfold State.noteMarks; split <;> rfl

/-- The writes of stored rows are whole lines without a tag. -/
theorem storedWrites_props (line w : Nat) (rows : List (List Nat)) (p f : Bool) : ∀ x ∈ storedWrites line w rows p f, x.mask = fullMask ∧ x.tag = none ∧ x.poison = p ∧ x.flagged = f ∧ x.collided = false := by
  intro x hx
  simp only [storedWrites, List.mem_flatten, List.mem_mapIdx] at hx
  obtain ⟨l, ⟨i, hi, rfl⟩, hx⟩ := hx
  simp only [rowWrites, List.mem_map] at hx
  obtain ⟨j, _, rfl⟩ := hx
  exact ⟨rfl, rfl, rfl, rfl, rfl⟩

/-- Rows mapped. -/
theorem storedRows_map {α β : Type} (b : Bool) (r c : Nat) (f : Nat → Nat → α) (g : α → β) : (storedRows b r c f).map (fun cs => cs.map g) = storedRows b r c (fun x y => g (f x y)) := by
  unfold storedRows; split <;> simp [Function.comp_def]

/-- What rows written out leave in the core. -/
theorem vecOut_core (s : State) (h : Holder) (reads line w rows) :
   (s.vecOut h reads line w rows).cores[coreOf h.queue.unit] = 
   ((s.touchLines (coreOf h.queue.unit) reads).cores[coreOf h.queue.unit].writes (some h) true (storedWrites line w (rows.map (fun cs => cs.map (fun x => if (s.cores[coreOf h.queue.unit].marks reads).1 then 0 else x.code))) (s.cores[coreOf h.queue.unit].marks reads).1 (s.cores[coreOf h.queue.unit].marks reads).2)).1 := by
  unfold State.vecOut
  dsimp only
  have e : ∀ (u : State) a b c d w x y z, (((((u.count a w).count b x).count c y).count d z).worked h).cores = u.cores := by
    intros; rw [worked_cores, count_cores, count_cores, count_cores, count_cores]
  have g : ∀ k n p f ws, ((((s.touchLines (coreOf h.queue.unit) reads).count k n).noteMarks h.queue p f).writeLines (coreOf h.queue.unit) (some h) true ws).cores[coreOf h.queue.unit] =
     ((s.touchLines (coreOf h.queue.unit) reads).cores[coreOf h.queue.unit].writes (some h) true ws).1 := by
    intro k n p f ws; rw [writeLines_core, noteMarks_cores, count_cores]
  generalize (s.cores[coreOf h.queue.unit].marks reads).1 = m
  cases m
  · refine Eq.trans ?_ (g (coreBlk (coreOf h.queue.unit) + 0x31C) (vectorExtra reads + vectorExtra ((storedWrites line w (rows.map (fun cs => cs.map (·.code))) false
      (s.cores[coreOf h.queue.unit].marks reads).2).map (·.line))) false (s.cores[coreOf h.queue.unit].marks reads).2 _)
    exact congrArg (fun v : Vector Core 7 => v[coreOf h.queue.unit]) (e _ _ _ _ _ _ _ _ _)
  · exact g _ _ true (s.cores[coreOf h.queue.unit].marks reads).2 _

/-- What a vector command leaves in the core. -/
theorem runVec_core (s : State) (h : Holder) (o nb nc f fi fo) (h1 : Fmt.ofCode o.fmtIn = some fi) (h2 : Fmt.ofCode o.fmtOut = some fo) (e : Elementwise)
   (he : e.ops = o ∧ e.needB = nb ∧ e.needC = nc ∧ e.value = f) :
   (s.runVec h o nb nc f).cores[coreOf h.queue.unit] = 
   ((s.touchLines (coreOf h.queue.unit) (e.reads fi)).cores[coreOf h.queue.unit].writes (some h) true (storedWrites o.dLine fo.width 
     (storedRows (vDCol o.vflags) (o.rowsM1 + 1) (o.colsM1 + 1)
        (fun r c => if (e.reads fi).any s.cores[coreOf h.queue.unit].poisoned then 0 else e.code fi fo s.cores[coreOf h.queue.unit] r c))
      ((e.reads fi).any s.cores[coreOf h.queue.unit].poisoned) ((e.reads fi).any s.cores[coreOf h.queue.unit].flags))).1 := by
  obtain ⟨rfl, rfl, rfl, rfl⟩ := he
  unfold State.runVec
  simp only [h1, h2]
  rw [vecOut_core]
  simp only [Core.marks]
  rw [storedRows_map]
  rfl

end Sys2Proof.Machine
end

