-- ==== Sys2Proof/Laws/Domains.lean ====
section
/-! SUPPORT. Laws/Domains.lean: what switching domains, the power controller, a rearm and a trip leave. -/

namespace Sys2Proof.Machine

open Sys2Proof

/-- What each step of a fold keeps, the fold keeps. -/
theorem foldl_keep {α β γ : Type} (f : α → β → α) (g : α → γ) (l : List β) (h : ∀ a b, g (f a b) = g a) : ∀ a, g (l.foldl f a) = g a := by
  induction l with
  | nil => intro a; rfl
  | cons x l ih => intro a; rw [List.foldl_cons, ih, h]

/-- What switching domains, power decisions and counters leave alone. -/
def State.plan (s : State) : Nat × Health × Option Stream × Job × Table Byte × Table Byte × Nat := (s.placement, s.health, s.stream, s.job, s.mem, s.window, s.now)

/-- Switching off. -/
theorem switchOff_plan (s : State) (d : Nat) : State.plan (s.switchOff d) = State.plan s := by
  unfold State.switchOff; simp only; split <;> rfl

/-- Switching on. -/
theorem switchOn_plan (s : State) (d : Nat) : State.plan (s.switchOn d) = State.plan s := by
  unfold State.switchOn
  simp only
  split
  · rfl
  · have h : ∀ u : State, State.plan ((domainUnits d).foldl (fun s u => s.clearUnit u) u) = State.plan u := by
      intro u; refine foldl_keep _ State.plan _ ?_ u; intros; rfl
    split
    · exact h _
    · exact h _

/-- The domains of a phase. -/
theorem phaseDomains_plan (s : State) (p : Nat) (k : BitVec 96) : State.plan (s.phaseDomains p k) = State.plan s := by
  unfold State.phaseDomains State.tryOff
  simp only
  refine (foldl_keep _ State.plan _ ?_ _).trans ?_
  · intro a b; split
    · exact switchOff_plan _ _
    · rfl
  · exact foldl_keep _ State.plan _ (by intro a b; split; exact switchOn_plan _ _; rfl) _

/-- Starting the lists. -/
theorem startLists_plan (s : State) : State.plan s.startLists = State.plan s := by
  unfold State.startLists; refine foldl_keep _ State.plan _ ?_ _; intros; rfl

/-- Cutting queues. -/
theorem cutQueues_plan (s : State) : State.plan s.cutQueues = State.plan s := by
  unfold State.cutQueues
  have hu : ∀ (u : State) (h : Holder), State.plan (u.undoPart h) = State.plan u := by
    intro u h; unfold State.undoPart State.undo State.onCore; dsimp only; split
    · split <;> rfl
    · rfl
  refine foldl_keep _ State.plan _ ?_ _
  intro a b
  show State.plan (List.foldl _ a _) = State.plan a
  refine foldl_keep _ State.plan _ ?_ _
  intro u n; exact hu u _

/-- Counting. -/
theorem count_plan (s : State) (k n : Nat) : State.plan (s.count k n) = State.plan s := by unfold State.count; split <;> rfl

/-- Accruing. -/
theorem accrue_plan (s : State) (r : Nat) : State.plan (s.accrue r) = State.plan s := by
  unfold State.accrue; split
  · split
    · exact count_plan _ _ _
    · rfl
  · rfl

/-- A reason set or cleared. -/
theorem setReason_plan (s : State) (r : Nat) (b : Bool) : State.plan (s.setReason r b) = State.plan s := by
  unfold State.setReason; split
  · split
    · exact count_plan _ _ _
    · split
      · exact accrue_plan _ _
      · rfl
  · rfl

/-- The power controller. -/
theorem powerOn_plan (s : State) : State.plan s.powerOn = State.plan s := by
  unfold State.powerOn State.sendStep
  dsimp only
  have : State.plan s.logReasons = State.plan s := by
    unfold State.logReasons; refine foldl_keep _ State.plan _ ?_ _; intros; exact setReason_plan _ _ _
  split
  · exact this
  · exact this

/-- Guarantees. -/
theorem clearGuarantee_plan (s : State) (n : Nat) : State.plan (s.clearGuarantee n) = State.plan s := by unfold State.clearGuarantee; split <;> rfl

/-- Switching off leaves the job. -/
theorem switchOff_job (s : State) (d : Nat) : (s.switchOff d).job = s.job := by
  unfold State.switchOff; simp only; split <;> rfl

/-- Switching on leaves the job. -/
theorem switchOn_job (s : State) (d : Nat) : (s.switchOn d).job = s.job := by
  unfold State.switchOn
  split
  · rfl
  · simp only
    have : ∀ u : State, ((domainUnits d).foldl (fun s u => s.clearUnit u) u).job = u.job := foldl_keep _ State.job _ (fun _ _ => rfl)
    split
    · exact this _
    · exact this _

/-- The domains of a phase leave the job. -/
theorem phaseDomains_job (s : State) (p : Nat) (k : BitVec 96) : (s.phaseDomains p k).job = s.job := by
  unfold State.phaseDomains State.tryOff
  simp only
  refine (foldl_keep _ State.job _ ?_ _).trans ?_
  · intro a b; split
    · exact switchOff_job _ _
    · rfl
  · exact foldl_keep _ State.job _ (by intro a b; split; exact switchOn_job _ _; rfl) _

/-- Starting the lists leaves the job. -/
theorem startLists_job (s : State) : s.startLists.job = s.job := by
  unfold State.startLists; refine foldl_keep _ State.job _ ?_ _; intros; rfl

/-- What a rearm leaves of the job (R73). -/
theorem rearmed_job (s : State) : s.rearmed.job = { s.job with phase := 0, completed := s.job.submitted, doorbell := [], dbMark := [], barriers := s.job.barriers.filter (fun e => decide (16 ≤ e.1)), holding := false } := by
  unfold State.rearmed
  simp only
  rw [phaseDomains_job, startLists_job]
  refine (foldl_keep _ State.job _ ?_ _).trans rfl; intros; rfl

/-- What switching every domain off leaves alone. -/
def State.kept (s : State) : Job × Invar × TimeUnit × PowerCtl × Boot × Table Word := (s.job, s.inv, s.time, s.pwr, s.boot, s.regs)

/-- Switching off. -/
theorem switchOff_kept (s : State) (d : Nat) : State.kept (s.switchOff d) = State.kept s := by
  unfold State.switchOff; simp only; split <;> rfl

/-- A domain switched off is off. -/
theorem switchOff_on (s : State) (d : Nat) : (s.switchOff d).power.on = s.power.on &&& ~~~(BitVec.ofNat 96 (2 ^ d)) := by
  unfold State.switchOff; simp only; split <;> rfl

/-- One bit cleared. -/
theorem clear_bit (b : BitVec 96) (d i : Nat) : (b &&& ~~~(BitVec.ofNat 96 (2 ^ d))).getLsbD i = (b.getLsbD i && !decide (i = d)) := by
  by_cases h : i < 96
  · have : (BitVec.ofNat 96 (2 ^ d)).getLsbD i = decide (i = d) := by
      rw [BitVec.getLsbD_ofNat]
      simp [h, Nat.testBit_two_pow, eq_comm]
    rw [BitVec.getLsbD_and, BitVec.getLsbD_not, this]; simp [h]
  · rw [BitVec.getLsbD_of_ge _ _ (by omega), BitVec.getLsbD_of_ge _ _ (by omega)]; rfl

/-- The domains of a list are off after the list. -/
theorem switchOff_all (l : List Nat) (s : State) (i : Nat) : (l.foldl (fun s d => s.switchOff d) s).power.on.getLsbD i = (s.power.on.getLsbD i && !decide (i ∈ l)) := by
  induction l generalizing s with
  | nil => simp
  | cons d l ih =>
    rw [List.foldl_cons, ih, switchOff_on, clear_bit]
    by_cases h : i = d <;> simp [h]

/-- Every domain of a list off, with what is lost. -/
def State.offAfter (L : List Nat) (s : State) : State :=
  let s := L.foldl (fun s d => s.switchOff d) s
  { s with
    cores := s.cores.map (fun c => { c with lines := [], claims := [], on := 0, zeroing := 0, dbgWait := false, repairs := [] })
    tokens := [], ee := s.ee.map (fun _ => Pewter.empty) }

/-- Switching all off is switching the 96 off. -/
theorem allOff_eq (s : State) : s.allOff = State.offAfter (List.range 96) s := by unfold State.allOff State.offAfter; rfl

/-- No domain is on after a list of all. -/
theorem offAfter_on (L : List Nat) (hL : ∀ i, i < 96 → i ∈ L) (s : State) : (State.offAfter L s).power.on = 0 := by
  have key : (L.foldl (fun s d => s.switchOff d) s).power.on = 0 := by
    apply BitVec.eq_of_getLsbD_eq
    intro i hi
    rw [switchOff_all]; simp [hL i hi]
  exact key

/-- What stays. -/
theorem offAfter_kept (L : List Nat) (s : State) : State.kept (State.offAfter L s) = State.kept s := by
  have h := foldl_keep (fun (s : State) d => s.switchOff d) State.kept L switchOff_kept s
  exact h

/-- With all off no domain is on (R337). -/
theorem allOff_on (s : State) : s.allOff.power.on = 0 := by
  rw [allOff_eq]; exact offAfter_on _ (fun i hi => List.mem_range.mpr hi) s

/-- What stays. -/
theorem allOff_kept (s : State) : State.kept s.allOff = State.kept s := by
  rw [allOff_eq]; exact offAfter_kept _ s

/-- Every scratchpad is empty and off (R337). -/
theorem allOff_cores (s : State) (n : Fin 7) : s.allOff.cores[n].lines = [] ∧ s.allOff.cores[n].on = 0 := by
  rw [allOff_eq]
  generalize List.range 96 = L
  unfold State.offAfter; simp

/-- Guarantees change registers only. -/
theorem clearGuarantee_regs (s : State) (n : Nat) : s.clearGuarantee n = { s with regs := (s.clearGuarantee n).regs } := by
  unfold State.clearGuarantee; split <;> rfl

/-- The ROM does not touch a trip. -/
theorem romBoot_trip (s : State) (b : Bool) : (s.romBoot b).trip = s.trip := by
  unfold State.romBoot; extract_lets fa fb; clear_value fa fb
  generalize s.chooseFirmware = o
  cases o <;> rfl

/-- The start does not touch a trip. -/
theorem burnAtStart_trip (s : State) : s.burnAtStart.trip = s.trip := by
  unfold State.burnAtStart; extract_lets ok
  generalize (ok 1 && ok 2) = o
  cases o <;> rfl

/-- The boot sequence does not touch a trip. -/
theorem reboot_trip (s : State) : s.reboot.trip = s.trip := by
  obtain ⟨u, hu⟩ : ∃ u : State, u = s.romBoot s.boot.slow := ⟨_, rfl⟩
  have e : s.reboot = if u.boot.recovery = true then u else ({ u with boot := { u.boot with up := true } } : State).burnAtStart := by
    unfold State.reboot; rw [← hu]
  have h : u.trip = s.trip := by rw [hu]; exact romBoot_trip _ _
  rw [e]
  by_cases hb : u.boot.recovery = true
  · rw [if_pos hb]; exact h
  · rw [if_neg hb, burnAtStart_trip]; exact h

end Sys2Proof.Machine
end

