-- ==== Sys2Proof/Laws/Interleave.lean ====
section
/-! SUPPORT. Laws/Interleave.lean: the identity interleave solves to itself, and nothing keeps it from being committed while no stream maps windows. -/

namespace Sys2Proof.Machine

open Sys2Proof

/-- The rows of the identity from bit `k` on. -/
def unitRows (b : Nat → Bool) (k n : Nat) : List Gf2Row := (List.range' k n).map (fun i => (2 ^ i, b i))

/-- Another unit row does not have bit `k`. -/
theorem unitRow_other (b : Nat → Bool) {k m n : Nat} (h : k < m ∨ m + n ≤ k) : ∀ r ∈ unitRows b m n, r.1.testBit k = false := by
  intro r hr
  obtain ⟨i, hi, rfl⟩ := List.mem_map.mp hr
  have := List.mem_range'_1.mp hi
  rw [Nat.testBit_two_pow]
  simp; omega

/-- Rows without bit `k` stay when column `k` is cleared. -/
theorem gf2_keep (k : Nat) (p : Gf2Row) (l : List Gf2Row) (h : ∀ r ∈ l, r.1.testBit k = false) :
    l.map (fun r : Gf2Row => if r.1.testBit k then (r.1 ^^^ p.1, xor r.2 p.2) else r) = l := by
  conv => rhs; rw [← List.map_id l]
  apply List.map_congr_left
  intro r hr
  simp [h r hr]

/-- One column of unit rows. -/
theorem gf2Column_unit (b : Nat → Bool) (k n m : Nat) (hm : m ≤ k) :
    gf2Column k (unitRows b m (k - m)) (unitRows b k (n + 1)) = some (unitRows b m (k - m) ++ [(2 ^ k, b k)], unitRows b (k + 1) n) := by
  have hc : unitRows b k (n + 1) = (2 ^ k, b k) :: unitRows b (k + 1) n := by simp [unitRows, List.range'_succ]
  unfold gf2Column
  rw [hc, List.find?_cons_of_pos (by simp [Nat.testBit_two_pow_self])]
  simp only [List.erase_cons_head]
  have h1 := gf2_keep k (2 ^ k, b k) _ (unitRow_other b (k := k) (m := m) (n := k - m) (Or.inr (by omega)))
  have h2 := gf2_keep k (2 ^ k, b k) _ (unitRow_other b (k := k) (m := k + 1) (n := n) (Or.inl (by omega)))
  simp only at h1 h2
  rw [h1, h2]

/-- The elimination leaves unit rows as they are. -/
theorem gf2Solve_unit (b : Nat → Bool) (m n : Nat) : ∀ k, m ≤ k → gf2Solve n k (unitRows b m (k - m)) (unitRows b k n) = .ok (unitRows b m (k - m + n)) := by
  induction n with
  | zero => intro k _; simp [gf2Solve]
  | succ n ih =>
    intro k hk
    rw [gf2Solve, gf2Column_unit b k n m hk]
    have e : unitRows b m (k - m) ++ [(2 ^ k, b k)] = unitRows b m (k + 1 - m) := by
      rw [show k + 1 - m = (k - m) + 1 by omega]
      simp only [unitRows, List.range'_concat, List.map_append, List.map_cons, List.map_nil]
      rw [show m + 1 * (k - m) = k by omega]
    simp only
    rw [e, ih (k + 1) (by omega), show k + 1 - m + n = k - m + (n + 1) by omega]

/-- The rows of the identity are unit rows. -/
theorem identity_rows (a : Nat) : Interleave.identity.rows a = unitRows (fun i => a.testBit i) 5 28 := by
  apply List.ext_getElem
  · simp [Interleave.rows, unitRows]
  · intro i h1 h2
    simp only [Interleave.rows, List.length_map, List.length_range] at h1
    simp [Interleave.rows, Interleave.identity, unitRows, h1, Nat.add_comm]

/-- The identity is solved. -/
theorem identity_solved (a : Nat) : gf2Solve 28 5 [] (Interleave.identity.rows a) = .ok (unitRows (fun i => a.testBit i) 5 28) := by
  have := gf2Solve_unit (fun i => a.testBit i) 5 28 5 (Nat.le_refl 5)
  rw [show unitRows (fun i => a.testBit i) 5 (5 - 5) = [] from rfl] at this
  rw [identity_rows, this]

/-- The low bits of a number summed up. -/
theorem bits_of_rows (a n : Nat) : ((unitRows (fun i => a.testBit i) 5 n).zipIdx).foldl (fun h (r : Gf2Row × Nat) => if r.1.2 then h + 2 ^ (r.2 + 5) else h) (a % 32) = a % 2 ^ (n + 5) := by
  induction n with
  | zero => rfl
  | succ n ih =>
    have e : unitRows (fun i => a.testBit i) 5 (n + 1) = unitRows (fun i => a.testBit i) 5 n ++ [(2 ^ (n + 5), a.testBit (n + 5))] := by
      simp only [unitRows, List.range'_concat, List.map_append, List.map_cons, List.map_nil]
      rw [show 5 + 1 * n = n + 5 by omega]
    have l : (unitRows (fun i => a.testBit i) 5 n).length = n := by simp [unitRows]
    rw [e, List.zipIdx_append, List.foldl_append, ih, l, show n + 1 + 5 = (n + 5) + 1 by omega, Nat.mod_pow_succ (x := a) (b := 2) (k := n + 5)]
    have hb : a / 2 ^ (n + 5) % 2 = (a.testBit (n + 5)).toNat := by
      rw [Nat.testBit_eq_decide_div_mod_eq]
      rcases Nat.mod_two_eq_zero_or_one (a / 2 ^ (n + 5)) with h | h <;> simp [h]
    rw [hb]
    cases h : a.testBit (n + 5) <;> simp

/-- The aperture of the identity is the address itself. -/
theorem identity_aperture {a : Nat} (h : a < 2 ^ 33) : Interleave.identity.aperture a = a := by
  unfold Interleave.aperture
  rw [identity_solved]
  exact (bits_of_rows a 28).trans (Nat.mod_eq_of_lt h)

/-- No bootstrap burst of the identity lies in the register page. -/
theorem identity_pages : Interleave.identity.bootPages.find? isRegPage = none := by
  have h : ∀ a ∈ bootstrapBursts, a < 2 ^ 33 ∧ isRegPage (a / 4096) = false := by decide +kernel
  rw [List.find?_eq_none]
  intro x hx
  unfold Interleave.bootPages at hx
  rw [List.mem_eraseDups] at hx
  obtain ⟨a, ha, rfl⟩ := List.mem_map.mp hx
  rw [identity_aperture (h a ha).1, (h a ha).2]
  decide

/-- The identity is invertible. -/
theorem identity_regular : Interleave.identity.singular = none := by
  have h0 : (List.range 28).find? (fun i => outside (Interleave.identity.masks.getD i 0)) = none := by decide +kernel
  have ho : outside Interleave.identity.offset = false := by decide
  have hs := identity_solved 0
  unfold Interleave.singular
  generalize gf2Solve 28 5 [] (Interleave.identity.rows 0) = r at hs ⊢
  generalize List.find? (fun i => outside (Interleave.identity.masks.getD i 0)) (List.range 28) = f at h0 ⊢
  generalize outside Interleave.identity.offset = o at ho ⊢
  subst h0 ho hs
  rfl

/-- An invertible description without a bootstrap burst in the register page can be committed while no stream maps windows (R251). -/
theorem commitFault_none {s : State} {d : Interleave} (h : s.stream = none) (h1 : d.singular = none) (h2 : d.bootPages.find? isRegPage = none) :
    s.commitFault d = none := by
  unfold State.commitFault
  have h3 : ∀ l : List Nat, l.find? (fun _ => false) = none := by intro l; simp
  simp [h1, h2, h, h3]

/-- The identity can be committed while no stream maps windows. -/
theorem identity_commits {s : State} (h : s.stream = none) : s.commitFault Interleave.identity = none :=
  commitFault_none h identity_regular identity_pages

end Sys2Proof.Machine
end

