-- ==== Sys2Proof/Laws/Memory.lean ====
section
/-! SUPPORT. Laws/Memory.lean: every operation on stack memory, window SRAM and flash keeps its canonical form, which the machine after reset has. -/

namespace Sys2Proof.Machine

open Sys2Proof

/-- The machine after reset has its memories in canonical form. -/
theorem reset_memOk : State.reset.memOk = true := by decide

/-- A write to stack memory keeps its canonical form. -/
theorem memWrite_wf {s : State} (h : Memory.wf s.mem = true) (a : Nat) (bs : List Byte) : Memory.wf (s.memWrite a bs).mem = true :=
  canon_putAll bs h a

/-- Zeroing a range of stack memory keeps its canonical form. -/
theorem memZero_wf {s : State} (h : Memory.wf s.mem = true) (a n : Nat) : Memory.wf (s.memZero a n).mem = true :=
  canon_wipe h _ _

/-- A write to the window keeps its canonical form. -/
theorem winWrite_wf {s : State} (h : Memory.wf s.window = true) (a : Nat) (bs : List Byte) : Memory.wf (s.winWrite a bs).window = true :=
  canon_putAll bs h a

/-- A write to flash keeps its canonical form. -/
theorem flashWrite_wf {s : State} (h : canon (0xFF : Byte) s.flash = true) (a : Nat) (bs : List Byte) :
    canon (0xFF : Byte) (s.flashWrite a bs).flash = true := canon_putAll bs h a

/-- The write of a host burst that reaches a page keeps the window's canonical form. -/
theorem maskedWrite_wf {s : State} (h : Memory.wf s.window = true) (a : Nat) (old new : List Byte) (mask : Nat) :
    Memory.wf (putAll (0 : Byte) s.window a (maskedBytes old new mask)) = true := canon_putAll _ h a

/-- Bytes written to stack memory are read back. -/
theorem memWrite_read {s : State} (h : Memory.wf s.mem = true) (a : Nat) (bs : List Byte) : (s.memWrite a bs).memBytes a bs.length = bs :=
  lookAll_putAll bs h a

/-- Bytes written to the window are read back. -/
theorem winWrite_read {s : State} (h : Memory.wf s.window = true) (a : Nat) (bs : List Byte) : (s.winWrite a bs).winBytes a bs.length = bs :=
  lookAll_putAll bs h a

/-- Bytes outside a write to stack memory stay. -/
theorem memWrite_other {s : State} (h : Memory.wf s.mem = true) (a : Nat) (bs : List Byte) (x : Nat) (hx : x < a ∨ a + bs.length ≤ x) :
    look (0 : Byte) (s.memWrite a bs).mem x = look (0 : Byte) s.mem x := by
  show look (0 : Byte) (putAll (0 : Byte) s.mem a bs) x = _
  rw [look_putAll bs h a x]
  split
  · omega
  · rfl

/-- Bytes outside a write to the window stay. -/
theorem winWrite_other {s : State} (h : Memory.wf s.window = true) (a : Nat) (bs : List Byte) (x : Nat) (hx : x < a ∨ a + bs.length ≤ x) :
    look (0 : Byte) (s.winWrite a bs).window x = look (0 : Byte) s.window x := by
  show look (0 : Byte) (putAll (0 : Byte) s.window a bs) x = _
  rw [look_putAll bs h a x]
  split
  · omega
  · rfl

/-- A write to stack memory changes nothing but memory and its uncorrectable lines. -/
theorem memWrite_frame (s : State) (a : Nat) (bs : List Byte) : s.memWrite a bs = { s with mem := (s.memWrite a bs).mem, memBad := (s.memWrite a bs).memBad } := rfl

/-- A write to the window changes nothing else but the errors of the words that it writes. -/
theorem winWrite_frame (s : State) (a : Nat) (bs : List Byte) :
    s.winWrite a bs = { s with window := (s.winWrite a bs).window, winErr := (s.winWrite a bs).winErr } := rfl

/-- A write to flash changes nothing else. -/
theorem flashWrite_frame (s : State) (a : Nat) (bs : List Byte) : s.flashWrite a bs = { s with flash := (s.flashWrite a bs).flash } := rfl

end Sys2Proof.Machine
end

