-- ==== Sys2Proof/Laws/Moving.lean ====
section
/-! SUPPORT. Laws/Moving.lean: the engine of a command in progress, and what reading and writing a block page by page does, said once. -/

namespace Sys2Proof.Machine

open Sys2Proof

variable {s t : State} {q : QueueId} {c : Command} {m : Mover}

/-! ## The engine of a command in progress -/

/-- In `t` the command that the queue has started from `s` is in progress with its engine at `m`. -/
def State.atEngine (t s : State) (q : QueueId) (c : Command) (m : Mover) : Prop :=
  t.queues = (s.begun q c).queues ∧ m = Mover.idle ∨ t.queues = (s.engaged q c m s).queues

theorem State.atEngine_begun (s : State) (q : QueueId) (c : Command) : (s.begun q c).atEngine s q c Mover.idle := .inl ⟨rfl, rfl⟩

theorem State.atEngine_engaged (s : State) (q : QueueId) (c : Command) (m : Mover) (t : State) : (s.engaged q c m t).atEngine s q c m := .inr rfl

theorem State.atEngine_of (h : t.atEngine s q c m) {u : State} (hu : u.queues = t.queues) : u.atEngine s q c m := by
  unfold State.atEngine at *; rw [hu]; exact h

/-- The engine of the command. -/
theorem State.mover_at (h : t.atEngine s q c m) : t.mover (s.holder q) = m := by
  have key : ∀ f : InProg → InProg, (∀ e, (f e).seq = e.seq) → t.queues = put QState.start s.queues (queueKey q) ((s.queue q).moved c s.now f) →
      t.mover (s.holder q) = (f ⟨(s.queue q).seq, (s.queue q).pc, s.now, c, false, false, false, Mover.idle⟩).mover := by
    intro f hf hq
    have h1 : t.prog (s.holder q) = (s.setQueue q ((s.queue q).moved c s.now f)).prog ⟨q, (s.queue q).seq⟩ := by
      unfold State.prog State.queue State.setQueue; rw [hq]; rfl
    rw [State.mover, h1, State.prog_moved _ _ _ _ _ _ hf]
  rcases h with ⟨h, rfl⟩ | h
  · exact key id (by intro e; rfl) (by rw [h, State.begun_queues])
  · exact key (fun e => { e with mover := m }) (by intro e; rfl) h

/-- The engine set. -/
theorem State.setMover_at (h : t.atEngine s q c m) (m' : Mover) : t.setMover (s.holder q) m' = s.engaged q c m' t := by
  have key : ∀ f : InProg → InProg, (∀ e, (f e).seq = e.seq) → t.queues = put QState.start s.queues (queueKey q) ((s.queue q).moved c s.now f) →
      t.setMover (s.holder q) m' = { t with queues := put QState.start s.queues (queueKey q) ((s.queue q).moved c s.now ((fun e => { e with mover := m' }) ∘ f)) } := by
    intro f hf hq
    rw [State.setMover, State.holder, State.onProg, State.onQueue_with (QState.moved_ne _ _ _ _) hq]
    exact congrArg (fun v => ({ t with queues := put QState.start s.queues (queueKey q) v } : State)) (QState.moved_map (s.queue q) c s.now f _ hf)
  rcases h with ⟨h, rfl⟩ | h
  · exact key id (by intro e; rfl) (by rw [h, State.begun_queues])
  · exact key (fun e => { e with mover := m }) (by intro e; rfl) h

/-- The engine set twice. -/
@[simp] theorem State.engaged_engaged (s : State) (q : QueueId) (c : Command) (m m' : Mover) (t : State) :
    s.engaged q c m' (s.engaged q c m t) = s.engaged q c m' t := rfl

/-! ## Reading a block page by page -/

/-- The queues' records replaced. -/
def State.withQueues (s : State) (x : Table QState) : State := { s with queues := x }

theorem State.onStack_queues (s : State) (n : Nat) (f : Stack → Stack) (x : Table QState) :
    (s.withQueues x).onStack n f = (s.onStack n f).withQueues x := by
  unfold State.onStack; split <;> rfl

theorem State.count_queues (s : State) (k n : Nat) (x : Table QState) : (s.withQueues x).count k n = (s.count k n).withQueues x := by
  unfold State.count; split <;> rfl

/-- The commands of a read neither look at the queues nor change them. -/
theorem State.readCmds_queues (x : Table QState) (l : List (Nat × Nat)) : ∀ u : State,
    l.foldl (fun s r => s.onStack (r.1 / 2 ^ 33) (fun k => k.giveRead (r.1 % 2 ^ 33) r.2)) (u.withQueues x) =
      (l.foldl (fun s r => s.onStack (r.1 / 2 ^ 33) (fun k => k.giveRead (r.1 % 2 ^ 33) r.2)) u).withQueues x := by
  induction l with
  | nil => intro u; rfl
  | cons a l ih => intro u; rw [List.foldl_cons, List.foldl_cons, State.onStack_queues, ih]

/-- A read of stack memory neither looks at the queues nor changes them. -/
theorem State.stackRead_queues (s : State) (p n : Nat) (x : Table QState) :
    (s.withQueues x).stackRead p n = ((s.stackRead p n).1, (s.stackRead p n).2.1, (s.stackRead p n).2.2.withQueues x) := by
  refine Prod.ext rfl (Prod.ext rfl ?_)
  show ((if s.memPoisoned p n = true then (s.withQueues x).count (cStkUe p) 1 else s.withQueues x).stackReadCmds p n) =
    ((if s.memPoisoned p n = true then s.count (cStkUe p) 1 else s).stackReadCmds p n).withQueues x
  rw [State.count_queues]
  split <;> exact State.readCmds_queues x _ _

/-- What a read of stack memory changes. -/
theorem State.stackRead_frame (s : State) (p n : Nat) : ∃ ks rs, (s.stackRead p n).2.2 = { s with memStacks := ks, regs := rs } := by
  have key : ∀ (l : List (Nat × Nat)) (u : State), ∃ ks, l.foldl (fun s r => s.onStack (r.1 / 2 ^ 33) (fun k => k.giveRead (r.1 % 2 ^ 33) r.2)) u = { u with memStacks := ks } := by
    intro l; induction l with
    | nil => intro u; exact ⟨_, rfl⟩
    | cons a l ih =>
      intro u; rw [List.foldl_cons, State.onStack]
      split
      · obtain ⟨ks, h⟩ := ih { u with memStacks := u.memStacks.set (a.1 / 2 ^ 33) (u.memStacks[a.1 / 2 ^ 33].giveRead (a.1 % 2 ^ 33) a.2) }
        exact ⟨ks, h⟩
      · exact ih u
  unfold State.stackRead State.stackReadCmds
  show ∃ ks rs, List.foldl _ (if s.memPoisoned p n = true then _ else _) _ = _
  split
  · obtain ⟨ks, h⟩ := key (stackRuns p n) (s.count (cStkUe p) 1)
    have hc : s.count (cStkUe p) 1 = { s with regs := (s.count (cStkUe p) 1).regs } := by unfold State.count; split <;> rfl
    refine ⟨ks, (s.count (cStkUe p) 1).regs, h.trans ?_⟩
    rw [hc]
  · obtain ⟨ks, h⟩ := key (stackRuns p n) s
    exact ⟨ks, s.regs, h⟩

/-- One span of a block read. -/
def State.readSpanOf (r : List Byte × Bool × State) (x : Nat × Nat) : List Byte × Bool × State :=
  match r.2.2.translate x.1 false with
  | .ok p => let y := r.2.2.stackRead p x.2; (r.1 ++ y.1, r.2.1 || y.2.1, y.2.2)
  | .fault _ => (r.1 ++ List.replicate x.2 0, true, r.2.2)

theorem State.virtRead_spans (s : State) (va n : Nat) : s.virtRead va n = (pageSpans (n + 1) va n).foldl State.readSpanOf ([], false, s) := rfl

theorem State.readSpanOf_queues (r : List Byte × Bool × State) (x : Nat × Nat) (y : Table QState) :
    State.readSpanOf (r.1, r.2.1, r.2.2.withQueues y) x =
      ((State.readSpanOf r x).1, (State.readSpanOf r x).2.1, (State.readSpanOf r x).2.2.withQueues y) := by
  have ht : (r.2.2.withQueues y).translate x.1 false = r.2.2.translate x.1 false := rfl
  simp only [State.readSpanOf, ht]
  split
  · simp only [State.stackRead_queues]
  · rfl

theorem State.readSpans_queues (l : List (Nat × Nat)) (y : Table QState) : ∀ r : List Byte × Bool × State,
    l.foldl State.readSpanOf (r.1, r.2.1, r.2.2.withQueues y) =
      ((l.foldl State.readSpanOf r).1, (l.foldl State.readSpanOf r).2.1, (l.foldl State.readSpanOf r).2.2.withQueues y) := by
  induction l with
  | nil => intro r; rfl
  | cons a l ih => intro r; rw [List.foldl_cons, List.foldl_cons, State.readSpanOf_queues, ih]

/-- A block read does not look at the queues. -/
theorem State.virtRead_queues (s : State) (va n : Nat) (y : Table QState) :
    (s.withQueues y).virtRead va n = ((s.virtRead va n).1, (s.virtRead va n).2.1, (s.virtRead va n).2.2.withQueues y) := by
  rw [State.virtRead_spans, State.virtRead_spans]
  exact State.readSpans_queues _ y ([], false, s)

theorem State.stackRead_length (s : State) (p n : Nat) : (s.stackRead p n).1.length = n := by
  show (s.memBytes p n).length = n; unfold State.memBytes lookAll; simp

theorem State.translate_frame {s t : State} (h1 : t.pages = s.pages) (h2 : t.stream = s.stream) (h3 : t.placement = s.placement) (a : Nat) (w : Bool) :
    t.translate a w = s.translate a w := by
  unfold State.translate State.pte State.physical State.place
  rw [h1, h2, h3]

/-- The spans of a block read from where the engine stands. -/
theorem State.readBlock_spans : ∀ (k : Nat) (t : State) (m : Mover) (va n f : Nat), t.atEngine s q c m → m.refused = [] → m.buf.length ≤ n →
    (∀ i, i < n → ∃ p, t.translate (va + i) false = .ok p) → n ≤ m.buf.length ∨ (va + m.buf.length) % 4096 + (n - m.buf.length) ≤ 4096 * k → n - m.buf.length < f →
    ∀ r, r = (pageSpans f (va + m.buf.length) (n - m.buf.length)).foldl State.readSpanOf (m.buf, m.poisoned, t) →
    ∃ u, t.readBlock (k + 1) (s.holder q) va n = (true, u) ∧
      (n ≤ m.buf.length ∧ u = t ∧ r = (m.buf, m.poisoned, t) ∨ n > m.buf.length ∧ u = s.engaged q c { m with buf := r.1, poisoned := r.2.1 } r.2.2) := by
  intro k
  induction k with
  | zero =>
    intro t m va n f hm hr hl hp hk hf r hres
    have hn : n - m.buf.length = 0 := by
      have := Nat.mod_lt (va + m.buf.length) (show 0 < 4096 by decide)
      omega
    obtain ⟨f, rfl⟩ : ∃ g, f = g + 1 := ⟨f - 1, by omega⟩
    have hn2 : n ≤ m.buf.length := by omega
    rw [hn, pageSpans, if_pos rfl] at hres
    subst hres
    exact ⟨t, by simp [State.readBlock, State.mover_at hm, hn2], .inl ⟨hn2, rfl, rfl⟩⟩
  | succ k ih =>
    intro t m va n f hm hr hl hp hk hf r hres
    obtain ⟨f, rfl⟩ : ∃ g, f = g + 1 := ⟨f - 1, by omega⟩
    by_cases hn : n ≤ m.buf.length
    · have hn0 : n - m.buf.length = 0 := by omega
      rw [hn0, pageSpans, if_pos rfl] at hres
      subst hres
      exact ⟨t, by simp [State.readBlock, State.mover_at hm, hn], .inl ⟨hn, rfl, rfl⟩⟩
    · obtain ⟨p, hp1⟩ := hp m.buf.length (by omega)
      have hmod := Nat.mod_lt (va + m.buf.length) (show 0 < 4096 by decide)
      generalize hlen : min (n - m.buf.length) (4096 - (va + m.buf.length) % 4096) = len
      have hsp : pageSpans (f + 1) (va + m.buf.length) (n - m.buf.length) =
          (va + m.buf.length, len) :: pageSpans f (va + m.buf.length + len) (n - m.buf.length - len) := by
        rw [pageSpans, if_neg (by omega), hlen]
      have hread : t.readVirt (s.holder q) 0xFFFF (va + m.buf.length) len [0, 0, 0, 0, 0] = (.ok, t.stackRead p len) := by
        rw [State.readVirt, State.refusedHere, State.mover_at hm, hr, hp1]; rfl
      obtain ⟨ks, rs, hfr⟩ := State.stackRead_frame t p len
      have hat : (t.stackRead p len).2.2.atEngine s q c m := State.atEngine_of hm (by rw [hfr])
      generalize hm' : ({ m with buf := m.buf ++ (t.stackRead p len).1, poisoned := m.poisoned || (t.stackRead p len).2.1 } : Mover) = m'
      have hstep : t.readBlock (k + 1 + 1) (s.holder q) va n = (s.engaged q c m' (t.stackRead p len).2.2).readBlock (k + 1) (s.holder q) va n := by
        rw [State.readBlock]
        simp only [State.mover_at hm, if_neg hn, hlen, hread]
        rw [State.mover_at hat, State.setMover_at hat, hm']
      have hbl : m'.buf.length = m.buf.length + len := by rw [← hm', List.length_append, State.stackRead_length]
      have hs1 : State.readSpanOf (m.buf, m.poisoned, t) (va + m.buf.length, len) = (m'.buf, m'.poisoned, (t.stackRead p len).2.2) := by
        simp only [State.readSpanOf, hp1, ← hm']
      rw [hsp, List.foldl_cons, hs1] at hres
      have hx : s.engaged q c m' (t.stackRead p len).2.2 = (t.stackRead p len).2.2.withQueues (s.engaged q c m' s).queues := rfl
      have hq := State.readSpans_queues (pageSpans f (va + m'.buf.length) (n - m'.buf.length)) (s.engaged q c m' s).queues (m'.buf, m'.poisoned, (t.stackRead p len).2.2)
      have he : va + m.buf.length + len = va + m'.buf.length := by omega
      have he2 : n - m.buf.length - len = n - m'.buf.length := by omega
      rw [he, he2] at hres
      rw [← hres] at hq
      obtain ⟨u, h1, h2⟩ := ih (s.engaged q c m' (t.stackRead p len).2.2) m' va n f (State.atEngine_engaged _ _ _ _ _) (by rw [← hm']; exact hr) (by omega)
        (by intro i hi; obtain ⟨x, hx⟩ := hp i hi; exact ⟨x, by rw [← hx, hfr]; rfl⟩)
        (by
          by_cases hc : n - m.buf.length ≤ 4096 - (va + m.buf.length) % 4096
          · left; omega
          · right; omega)
        (by omega) (r.1, r.2.1, r.2.2.withQueues (s.engaged q c m' s).queues) (by rw [hx]; exact hq.symm)
      refine ⟨u, hstep.trans h1, .inr ⟨by omega, ?_⟩⟩
      rcases h2 with ⟨_, h2, h3⟩ | ⟨_, h2⟩
      · rw [h2, hx]
        have e1 : r.1 = m'.buf := congrArg (fun r => r.1) h3
        have e2 : r.2.1 = m'.poisoned := congrArg (fun r => r.2.1) h3
        have e3 : r.2.2.withQueues (s.engaged q c m' s).queues = s.engaged q c m' (t.stackRead p len).2.2 := congrArg (fun r => r.2.2) h3
        have e4 : ({ m with buf := r.1, poisoned := r.2.1 } : Mover) = m' := by rw [e1, e2, ← hm']
        rw [e4, ← hx, ← e3]; rfl
      · rw [h2, ← hm']; rfl

/-- A block whose every page can be read is read whole: what the engine then holds, and what the reads leave. -/
theorem State.readBlock_reads {k va n : Nat} (h : t.atEngine s q c m) (hr : m.refused = []) (hb : m.buf = []) (hn : m.poisoned = false)
    (hp : ∀ i, i < n → ∃ p, t.translate (va + i) false = .ok p) (hk : va % 4096 + n ≤ 4096 * k) (h0 : 0 < n) :
    t.readBlock (k + 1) (s.holder q) va n =
      (true, s.engaged q c { m with buf := (t.virtRead va n).1, poisoned := (t.virtRead va n).2.1 } (t.virtRead va n).2.2) := by
  obtain ⟨u, h1, h2⟩ := State.readBlock_spans (s := s) (q := q) (c := c) k t m va n (n + 1) h hr (by rw [hb]; simp) hp (.inr (by rw [hb]; simpa using hk)) (by rw [hb]; simp) _ rfl
  rw [h1]
  rcases h2 with ⟨h3, _⟩ | ⟨_, h3⟩
  · rw [hb] at h3; simp at h3; omega
  · rw [h3, hb, hn]; rfl

/-- A block read answers as many bytes as it is asked for. -/
theorem State.virtRead_length (s : State) (va n : Nat) : (s.virtRead va n).1.length = n := by
  have key : ∀ (f va n : Nat) (r : List Byte × Bool × State), n < f → ((pageSpans f va n).foldl State.readSpanOf r).1.length = r.1.length + n := by
    intro f
    induction f with
    | zero => intro va n r h; omega
    | succ f ih =>
      intro va n r h
      rw [pageSpans]
      split
      · rename_i h0; simp [h0]
      · rw [List.foldl_cons, ih _ _ _ (by have := Nat.mod_lt va (show 0 < 4096 by decide); omega)]
        have : (State.readSpanOf r (va, min n (4096 - va % 4096))).1.length = r.1.length + min n (4096 - va % 4096) := by
          unfold State.readSpanOf
          split
          · simp only [List.length_append, State.stackRead_length]
          · simp
        rw [this]; omega
  rw [State.virtRead_spans, key (n + 1) va n ([], false, s) (by omega)]; simp

/-- What a block read changes. -/
theorem State.virtRead_frame (s : State) (va n : Nat) : ∃ ks rs, (s.virtRead va n).2.2 = { s with memStacks := ks, regs := rs } := by
  have key : ∀ (l : List (Nat × Nat)) (r : List Byte × Bool × State), ∃ ks rs, (l.foldl State.readSpanOf r).2.2 = { r.2.2 with memStacks := ks, regs := rs } := by
    intro l
    induction l with
    | nil => intro r; exact ⟨_, _, rfl⟩
    | cons a l ih =>
      intro r
      rw [List.foldl_cons]
      obtain ⟨ks, rs, h⟩ := ih (State.readSpanOf r a)
      rw [h]
      simp only [State.readSpanOf]
      split
      · rename_i p _
        obtain ⟨k2, r2, h2⟩ := State.stackRead_frame r.2.2 p a.2
        exact ⟨ks, rs, by simp only [h2]⟩
      · exact ⟨ks, rs, rfl⟩
  exact key _ ([], false, s)

/-! ## Writing a block page by page -/

/-- What the commands of a write change. -/
theorem State.writeCmds_frame (s : State) (p n : Nat) : ∃ ks, s.stackWriteCmds p n = { s with memStacks := ks } := by
  unfold State.stackWriteCmds
  generalize stackRuns p n = l
  induction l generalizing s with
  | nil => exact ⟨_, rfl⟩
  | cons a l ih =>
    rw [List.foldl_cons, State.onStack]
    split
    · obtain ⟨ks, h⟩ := ih { s with memStacks := s.memStacks.set (a.1 / 2 ^ 33) (s.memStacks[a.1 / 2 ^ 33].give
        ⟨0, true, stackChannel (a.1 % 2 ^ 33), stackLine (a.1 % 2 ^ 33), a.2,
          (List.range a.2).map (fun i => (lookAll (0 : Byte) s.mem (a.1 + 64 * i) 64, wmaskOf p n (a.1 + 64 * i))), 0, 0, 0⟩) }
      exact ⟨ks, h⟩
    · exact ih s

/-- What a write of stack memory changes. -/
theorem State.stackWrite_frame (s : State) (p : Nat) (bs : List Byte) : ∃ mb ks, s.stackWrite p bs = { s with
    mem := putAll (0 : Byte) s.mem p bs
    memBad := mb
    memStacks := ks } := by
  obtain ⟨ks, h⟩ := State.writeCmds_frame (s.memWrite p bs) p bs.length
  exact ⟨_, ks, h⟩

/-- One page of a block write. -/
def State.writeCutOf (r : State × Bool) (x : Nat × List Byte) : State × Bool :=
  match r.1.translate x.1 true with
  | .ok p => (r.1.stackWrite p x.2, r.2)
  | .fault _ => (r.1, true)

theorem State.virtWrite_cuts (s : State) (va : Nat) (bs : List Byte) : s.virtWrite va bs = (pageCuts (bs.length + 1) va bs).foldl State.writeCutOf (s, false) := rfl

/-- A block whose every page can be written is written whole, from where the engine stands. -/
theorem State.writeSpan_writes : ∀ (k : Nat) (t v : State) (b : Bool) (m : Mover) (va : Nat) (bs : List Byte) (f : Nat), t.queues = (s.engaged q c m s).queues → m.refused = [] → m.next ≤ bs.length →
    (∀ i, i < bs.length → ∃ p, t.translate (va + i) true = .ok p) → bs.length ≤ m.next ∨ (va + m.next) % 4096 + (bs.length - m.next) ≤ 4096 * k → bs.length - m.next < f →
    v.mem = t.mem → v.pages = t.pages → v.stream = t.stream → v.placement = t.placement →
    ∃ u m', t.writeSpan (k + 1) (s.holder q) va bs = (true, u) ∧ u.queues = (s.engaged q c m' s).queues ∧
      u.mem = ((pageCuts f (va + m.next) (bs.drop m.next)).foldl State.writeCutOf (v, b)).1.mem ∧
      u = { t with mem := u.mem, memBad := u.memBad, memStacks := u.memStacks, queues := u.queues } := by
  intro k
  induction k with
  | zero =>
    intro t v b m va bs f hq hr hl hp hk hf e1 e2 e3 e4
    have hm : t.atEngine s q c m := .inr hq
    have := Nat.mod_lt (va + m.next) (show 0 < 4096 by decide)
    have hn : bs.length ≤ m.next := by omega
    obtain ⟨f, rfl⟩ : ∃ g, f = g + 1 := ⟨f - 1, by omega⟩
    have hd : bs.drop m.next = [] := List.drop_eq_nil_of_le hn
    refine ⟨t, m, by simp [State.writeSpan, State.mover_at hm, hn], hq, ?_, rfl⟩
    rw [hd, pageCuts]; exact e1.symm
  | succ k ih =>
    intro t v b m va bs f hq hr hl hp hk hf e1 e2 e3 e4
    have hm : t.atEngine s q c m := .inr hq
    obtain ⟨f, rfl⟩ : ∃ g, f = g + 1 := ⟨f - 1, by omega⟩
    by_cases hn : bs.length ≤ m.next
    · have hd : bs.drop m.next = [] := List.drop_eq_nil_of_le hn
      refine ⟨t, m, by simp [State.writeSpan, State.mover_at hm, hn], hq, ?_, rfl⟩
      rw [hd, pageCuts]; exact e1.symm
    · obtain ⟨p, hp1⟩ := hp m.next (by omega)
      have hmod := Nat.mod_lt (va + m.next) (show 0 < 4096 by decide)
      generalize hk2 : 4096 - (va + m.next) % 4096 = w
      have hne : (bs.drop m.next).isEmpty = false := by
        rw [List.isEmpty_eq_false_iff]; intro h; have := congrArg List.length h; simp at this; omega
      have hcut : pageCuts (f + 1) (va + m.next) (bs.drop m.next) = (va + m.next, (bs.drop m.next).take w) :: pageCuts f (va + m.next + w) ((bs.drop m.next).drop w) := by
        rw [pageCuts, hne, if_neg (by decide), hk2]
      obtain ⟨mb, ks, hfr⟩ := State.stackWrite_frame t p ((bs.drop m.next).take w)
      have hat : (t.stackWrite p ((bs.drop m.next).take w)).atEngine s q c m := State.atEngine_of hm (by rw [hfr])
      obtain ⟨mb2, m2, hcov, hm2n, hm2r⟩ : ∃ mb2 m2, (t.stackWrite p ((bs.drop m.next).take w)).coverLine (s.holder q) p ((bs.drop m.next).take w).length =
          s.engaged q c m2 { t.stackWrite p ((bs.drop m.next).take w) with memBad := mb2 } ∧ m2.next = m.next ∧ m2.refused = [] := by
        rw [State.coverLine]
        simp only [State.mover_at hat, State.setMover_at hat]
        split <;> split <;> exact ⟨_, _, rfl, rfl, hr⟩
      generalize hlp : ((bs.drop m.next).take w).length = len
      have hlen : len = min w (bs.length - m.next) := by rw [← hlp]; simp
      have hwrite : t.writeVirt (s.holder q) 0xFFFF (va + m.next) ((bs.drop m.next).take w) [0, 0, 0, 0, 0] =
          (.ok, s.engaged q c m2 { t.stackWrite p ((bs.drop m.next).take w) with memBad := mb2 }) := by
        rw [State.writeVirt, State.refusedHere, State.mover_at hm, hr, hp1, ← hcov]; rfl
      have hstep : t.writeSpan (k + 1 + 1) (s.holder q) va bs =
          (s.engaged q c { m2 with next := m2.next + len } { t.stackWrite p ((bs.drop m.next).take w) with memBad := mb2 }).writeSpan (k + 1) (s.holder q) va bs := by
        rw [State.writeSpan]
        simp only [State.mover_at hm, if_neg hn, hk2, hwrite]
        rw [State.mover_at (State.atEngine_engaged _ _ _ _ _), State.setMover_at (State.atEngine_engaged _ _ _ _ _), State.engaged_engaged, hlp, hm2n]
      have hvx : v.translate (va + m.next) true = .ok p := by rw [← hp1]; exact (State.translate_frame e2 e3 e4 _ _)
      obtain ⟨mb3, ks3, hfr3⟩ := State.stackWrite_frame v p ((bs.drop m.next).take w)
      have hs1 : State.writeCutOf (v, b) (va + m.next, (bs.drop m.next).take w) = (v.stackWrite p ((bs.drop m.next).take w), b) := by
        simp only [State.writeCutOf, hvx]
      obtain ⟨u, m', h1, h2, h3, h4⟩ := ih (s.engaged q c { m2 with next := m2.next + len } { t.stackWrite p ((bs.drop m.next).take w) with memBad := mb2 })
        (v.stackWrite p ((bs.drop m.next).take w)) b { m2 with next := m2.next + len } va bs f rfl hm2r
        (by simp only; omega)
        (by intro i hi; obtain ⟨x, hx⟩ := hp i hi; exact ⟨x, by rw [← hx, hfr]; rfl⟩)
        (by
          simp only
          by_cases hc : bs.length - m.next ≤ w
          · left; omega
          · right; have : (va + (m2.next + len)) % 4096 = 0 := by omega
            omega)
        (by simp only; omega) (by rw [hfr3, hfr]; simp only [State.engaged]; rw [e1]) (by rw [hfr3, hfr]; exact e2) (by rw [hfr3, hfr]; exact e3) (by rw [hfr3, hfr]; exact e4)
      refine ⟨u, m', hstep.trans h1, h2, ?_, ?_⟩
      · rw [h3, hcut, List.foldl_cons, hs1]
        simp only
        by_cases hc : bs.length - m.next ≤ w
        · have d1 : bs.drop (m2.next + len) = [] := List.drop_eq_nil_of_le (by omega)
          have d2 : (bs.drop m.next).drop w = [] := List.drop_eq_nil_of_le (by simp; omega)
          obtain ⟨f, rfl⟩ : ∃ g, f = g + 1 := ⟨f - 1, by omega⟩
          rw [d1, d2]; simp [pageCuts]
        · have d1 : m2.next + len = m.next + w := by omega
          rw [d1, List.drop_drop, Nat.add_assoc]
      · rw [h4, hfr]; rfl

theorem State.fetchEntry_queues (s : State) (x : Table QState) (i : Nat) : (s.withQueues x).fetchEntry i = (s.fetchEntry i).withQueues x := by
  have e : (s.withQueues x).stream = s.stream := rfl
  unfold State.fetchEntry
  rw [e]
  split <;> rfl

theorem State.memWrite_queues (s : State) (a : Nat) (bs : List Byte) (x : Table QState) : (s.withQueues x).memWrite a bs = (s.memWrite a bs).withQueues x := by
  unfold State.memWrite
  have e1 : (s.withQueues x).mem = s.mem := rfl
  have e2 : (s.withQueues x).memBad = s.memBad := rfl
  dsimp only
  rw [e1, e2]
  rfl

theorem State.storeEntry_queues (s : State) (x : Table QState) (i : Nat) : (s.withQueues x).storeEntry i = (s.storeEntry i).withQueues x := by
  have e : (s.withQueues x).stream = s.stream := rfl
  have e1 : (s.withQueues x).hasChan i = s.hasChan i := rfl
  have e2 : (s.withQueues x).entryAt i = s.entryAt i := rfl
  have e3 : (s.withQueues x).chan i = s.chan i := rfl
  unfold State.storeEntry
  rw [e, e1, e2, e3]
  generalize s.entryAt i = a
  generalize (s.chan i).ent.bytes = bs
  split
  · exact State.memWrite_queues s a bs x
  · rfl

/-- The entry that a token finds does not depend on the queues. -/
theorem State.lookEntry_queues (s : State) (x : Table QState) (i : Nat) : (s.withQueues x).lookEntry i = (s.lookEntry i).withQueues x := by
  have e0 : ((s.withQueues x).chan i).ent.pinned = (s.chan i).ent.pinned := rfl
  have e1 : (s.withQueues x).cached = s.cached := rfl
  have e2 : (s.withQueues x).hasChan i = s.hasChan i := rfl
  unfold State.lookEntry
  rw [e0, e1, e2, State.count_queues]
  generalize s.count rChnMiss 1 = u
  have f1 : (u.withQueues x).cached = u.cached := rfl
  have f2 : (u.withQueues x).cacheRoom = u.cacheRoom := rfl
  have f3 : (u.withQueues x).fresh = (u.fresh.1, u.fresh.2.withQueues x) := rfl
  have f4 : ∀ j, (u.withQueues x).chan j = u.chan j := fun _ => rfl
  have f5 : (u.fresh.2.withQueues x).cached = u.fresh.2.cached := rfl
  split
  · rfl
  · dsimp only
    simp only [f1, f2, f3, f4, f5, State.fetchEntry_queues]
    split
    · rfl
    · cases (u.cached.filter (fun j => (u.chan j).settled))[u.fresh.1 % max 1 (u.cached.filter (fun j => (u.chan j).settled)).length]? with
      | none => rfl
      | some j => simp only [State.storeEntry_queues, State.fetchEntry_queues]; rfl

end Sys2Proof.Machine
end

