-- ==== Sys2Proof/Laws/Registers.lean ====
section
/-! SUPPORT. Laws/Registers.lean: reading and writing registers and counters. -/

namespace Sys2Proof.Machine

open Sys2Proof

/-- A counter that counts is not zero and fits its register. -/
theorem bumped_pos (c : Nat) : bumped c 1 ≠ 0 ∧ bumped c 1 < 2 ^ 32 := by
  unfold bumped; simp only; split
  · omega
  · next h => simp at h; omega

/-- A counter that counts reads one higher, saturating. -/
theorem reg_count (s : State) (k : Nat) : (s.count k 1).reg k = bumped (s.reg k) 1 := by
  have := bumped_pos (s.reg k)
  simp only [State.count, State.setReg, State.reg]
  rw [if_neg (by omega)]
  simp only
  rw [look_put_self]
  · simp [State.reg] at this ⊢; omega
  · intro h
    have := congrArg BitVec.toNat h
    simp [State.reg] at *
    omega

/-- Settling a state that differs in registers only changes nothing. -/
theorem settle_regs (s : State) (m : Table Word) : s.settle { s with regs := m } = { s with regs := m } := State.settle_same (by rfl) (by rfl) (by rfl) (by rfl)

/-- Counting changes registers only. -/
theorem count_regs (s : State) (k n : Nat) : s.count k n = { s with regs := (s.count k n).regs } := by
  simp only [State.count]; split <;> rfl

/-- Reading after a register write, in a canonical table. -/
theorem reg_set (s : State) (hc : canon (0 : Word) s.regs = true) (k v j : Nat) : (s.setReg k v).reg j = if j = k then v % 2 ^ 32 else s.reg j := by
  simp only [State.setReg, State.reg, look_put_canon hc]
  split
  · simp
  · rfl

/-- A register write keeps the canonical form. -/
theorem set_canon (s : State) (hc : canon (0 : Word) s.regs = true) (k v : Nat) : canon (0 : Word) (s.setReg k v).regs = true := canon_put hc _ _

/-- A register is 32 bits. -/
theorem reg_lt (s : State) (k : Nat) : s.reg k < 2 ^ 32 := (look (0 : Word) s.regs k).isLt

/-- A number made of bits has them. -/
theorem bits_sum (f : Nat → Bool) (n : Nat) : (List.range n).foldl (fun a p => a + b2n (f p) * 2 ^ p) 0 < 2 ^ n ∧
   ∀ p, ((List.range n).foldl (fun a p => a + b2n (f p) * 2 ^ p) 0).testBit p = (decide (p < n) && f p) := by
  induction n with
  | zero => simp
  | succ n ih =>
    rw [List.range_succ, List.foldl_append]
    generalize (List.range n).foldl (fun a p => a + b2n (f p) * 2 ^ p) 0 = a at *
    simp only [List.foldl_cons, List.foldl_nil]
    obtain ⟨h1, h2⟩ := ih
    cases hf : f n with
    | false =>
      simp only [b2n, Bool.false_eq_true, if_false, Nat.zero_mul, Nat.add_zero]
      refine ⟨by rw [Nat.pow_succ]; omega, fun p => ?_⟩
      rw [h2]
      by_cases hp : p = n
      · subst hp; simp [hf]
      · congr 1; simp; omega
    | true =>
      simp only [b2n, if_true, Nat.one_mul]
      refine ⟨by rw [Nat.pow_succ]; omega, fun p => ?_⟩
      rw [Nat.add_comm a]
      by_cases hp : p = n
      · subst hp
        rw [Nat.testBit_two_pow_add_eq, Nat.testBit_lt_two_pow h1]; simp [hf]
      · rcases Nat.lt_or_ge p n with hl | hl
        · rw [Nat.testBit_two_pow_add_gt hl, h2]; simp [hl]; omega
        · have : 2 ^ n + a < 2 ^ p := by
            have : 2 ^ (n + 1) ≤ 2 ^ p := Nat.pow_le_pow_right (by omega) (by omega)
            rw [Nat.pow_succ] at this; omega
          rw [Nat.testBit_lt_two_pow this]; simp; omega

/-- Consecutive registers written are read back and the others stay. -/
theorem set_many (s : State) (hc : canon (0 : Word) s.regs = true) (b : Nat) (f : Nat → Nat) : ∀ n, 
   let t := (List.range n).foldl (fun s i => s.setReg (b + 4 * i) (f i)) s
   canon (0 : Word) t.regs = true ∧ (∀ i, i < n → t.reg (b + 4 * i) = f i % 2 ^ 32) ∧ (∀ k, (∀ i, i < n → k ≠ b + 4 * i) → t.reg k = s.reg k) ∧ t = { s with regs := t.regs } := by
  intro n
  induction n with
  | zero => exact ⟨hc, fun i h => absurd h (by omega), fun _ _ => rfl, rfl⟩
  | succ n ih =>
    simp only at ih ⊢
    rw [List.range_succ, List.foldl_append]
    generalize (List.range n).foldl (fun s i => s.setReg (b + 4 * i) (f i)) s = t at *
    obtain ⟨h1, h2, h3, h4⟩ := ih
    simp only [List.foldl_cons, List.foldl_nil]
    refine ⟨set_canon t h1 _ _, fun i hi => ?_, fun k hk => ?_, ?_⟩
    · rw [reg_set t h1]
      by_cases he : i = n
      · subst he; rw [if_pos rfl]
      · rw [if_neg (by omega), h2 i (by omega)]
    · rw [reg_set t h1, if_neg (hk n (by omega)), h3 k (fun i hi => hk i (by omega))]
    · rw [h4]; rfl

/-- Counting leaves the part, the queue of commands, the fuses, the boot state and the time alone. -/
theorem count_same (s : State) (k n : Nat) : (s.count k n).part = s.part ∧ (s.count k n).pending = s.pending ∧ (s.count k n).otp = s.otp ∧ (s.count k n).boot = s.boot ∧ (s.count k n).now = s.now ∧ (s.count k n).memBad = s.memBad := by
  unfold State.count; split <;> exact ⟨rfl, rfl, rfl, rfl, rfl, rfl⟩

end Sys2Proof.Machine
end

