-- ==== Sys2Proof/Laws/Traffic.lean ====
section
/-! SUPPORT. Laws/Traffic.lean: tokens and credits that move change no record of a queue, no Ethernet port and no size of a token, said once for each operation. -/

namespace Sys2Proof.Machine

open Sys2Proof

/-- What moving tokens and credits leaves alone: the records of the queues and the Ethernet ports. -/
def State.still (s : State) : Table QState × Vector EthPort 4 := (s.queues, s.eth)

/-- Steps that leave it alone one by one leave it alone together. -/
theorem still_foldl {α : Type} (f : State → α → State) (h : ∀ s a, (f s a).still = s.still) (l : List α) : ∀ s, (l.foldl f s).still = s.still := by
  induction l with
  | nil => intro s; rfl
  | cons a l ih => intro s; rw [List.foldl_cons, ih, h]

@[simp] theorem still_onChan (s : State) (i f) : (s.onChan i f).still = s.still := rfl
@[simp] theorem still_setReg (s : State) (k v) : (s.setReg k v).still = s.still := rfl
@[simp] theorem still_setRegField (s : State) (k a b v) : (s.setRegField k a b v).still = s.still := rfl
@[simp] theorem still_irq (s : State) (x) : (s.irq x).still = s.still := rfl
@[simp] theorem still_fresh (s : State) : s.fresh.2.still = s.still := rfl
@[simp] theorem still_memWrite (s : State) (a bs) : (s.memWrite a bs).still = s.still := rfl
@[simp] theorem still_winWrite (s : State) (a bs) : (s.winWrite a bs).still = s.still := rfl
@[simp] theorem still_setFlow (s : State) (f) : (s.setFlow f).still = s.still := rfl
@[simp] theorem still_count (s : State) (k n) : (s.count k n).still = s.still := by unfold State.count; split <;> rfl
@[simp] theorem still_onPort (s : State) (n f) : (s.onPort n f).still = s.still := by unfold State.onPort; split <;> rfl
@[simp] theorem still_onEe (s : State) (n f) : (s.onEe n f).still = s.still := by unfold State.onEe; split <;> rfl
@[simp] theorem still_clearGuarantee (s : State) (n) : (s.clearGuarantee n).still = s.still := by unfold State.clearGuarantee; split <;> rfl
@[simp] theorem still_writeLines (s : State) (c h e ws) : (s.writeLines c h e ws).still = s.still := by
  unfold State.writeLines; exact still_count _ _ _
@[simp] theorem still_storeEntry (s : State) (i) : (s.storeEntry i).still = s.still := by
  unfold State.storeEntry; split
  · exact still_memWrite _ _ _
  · rfl
@[simp] theorem still_fetchEntry (s : State) (i) : (s.fetchEntry i).still = s.still := by unfold State.fetchEntry; split <;> rfl
@[simp] theorem still_syncEntry (s : State) (i) : (s.syncEntry i).still = s.still := by unfold State.syncEntry; split <;> simp

@[simp] theorem still_lookEntry (s : State) (i) : (s.lookEntry i).still = s.still := by
  unfold State.lookEntry
  split
  · rfl
  · dsimp only
    split
    · show (State.fetchEntry _ _).still = _
      simp
    · split
      · show (State.fetchEntry (State.storeEntry _ _) _).still = _
        simp
      · simp

@[simp] theorem still_dropToken (s : State) (i n) : (s.dropToken i n).still = s.still := by
  unfold State.dropToken; dsimp only; split <;> simp

/-- A packet sent. -/
@[simp] theorem still_sendPacket (s : State) (k o) : (s.sendPacket k o).still = s.still := by
  unfold State.sendPacket
  repeat' split
  all_goals first
    | (simp; done)
    | (simp; rfl)

@[simp] theorem still_arrive (s : State) (i t) : (s.arrive i t).still = s.still := by
  unfold State.arrive
  dsimp only
  repeat' split
  all_goals simp

@[simp] theorem still_deliver (s : State) (i t) : (s.deliver i t).still = s.still := by
  unfold State.deliver
  dsimp only
  repeat' split
  all_goals simp

@[simp] theorem still_issueTo (s : State) (i k t) : (s.issueTo i k t).still = s.still := by
  unfold State.issueTo
  dsimp only
  repeat' split
  all_goals first
    | simp
    | (apply still_foldl; intro s a; simp)

theorem still_issueAll (i : Nat) (l : List (List Token)) : ∀ (s : State) (k : Nat), (s.issueAll i k l).still = s.still := by
  induction l with
  | nil => intro s k; rfl
  | cons a l ih => intro s k; rw [State.issueAll, ih, still_foldl _ (fun s t => still_issueTo s i k t)]

/-- A token sent. -/
theorem still_send (s : State) (i m x ts a b c) : (s.send i m x ts a b c).still = s.still := by
  unfold State.send
  dsimp only
  repeat' split
  all_goals simp [still_issueAll]

@[simp] theorem still_takeIn (s : State) (i t) : (s.takeIn i t).still = s.still := by
  unfold State.takeIn
  dsimp only
  split <;> simp

@[simp] theorem still_branchSend (s : State) (f k t) : (s.branchSend f k t).still = s.still := by
  unfold State.branchSend
  repeat' split
  all_goals first
    | simp
    | (apply still_foldl; intro s a; simp)

@[simp] theorem still_combine (s : State) (f) : (s.combine f).still = s.still := by
  unfold State.combine
  dsimp only
  repeat' split
  all_goals simp

@[simp] theorem still_branchCredit (s : State) (f k n) : (s.branchCredit f k n).still = s.still := by
  unfold State.branchCredit
  dsimp only
  split
  · simp
  · rw [still_foldl _ (fun s t => still_branchSend s _ k t)]; simp

/-- Credits returned. -/
theorem still_returnCredits (s : State) (i n) : (s.returnCredits i n).still = s.still := by
  unfold State.returnCredits
  dsimp only
  repeat' split
  all_goals first
    | simp
    | (apply still_foldl; intro s a; simp)

/-! ## TOKEN_BYTES -/

/-- TOKEN_BYTES of channel `i`, which moving its tokens leaves alone. -/
def State.tokenSize (s : State) (i : Nat) : Nat := (s.chan i).ent.tokenBytes

theorem tokenSize_foldl {α : Type} (i : Nat) (f : State → α → State) (h : ∀ s a, (f s a).tokenSize i = s.tokenSize i) (l : List α) : ∀ s, (l.foldl f s).tokenSize i = s.tokenSize i := by
  induction l with
  | nil => intro s; rfl
  | cons a l ih => intro s; rw [List.foldl_cons, ih, h]
theorem tokenSize_chans {s t : State} (h : t.chans = s.chans) (i : Nat) : t.tokenSize i = s.tokenSize i := by unfold State.tokenSize State.chan; rw [h]
theorem tokenSize_onChan (s : State) (i j : Nat) (f : Chan → Chan) (hf : (f (s.chan i)).ent.tokenBytes = (s.chan i).ent.tokenBytes) : (s.onChan i f).tokenSize j = s.tokenSize j := by
  unfold State.tokenSize State.onChan State.chan at *
  simp only [List.getD_eq_getElem?_getD, List.getElem?_modify] at *
  by_cases h : i = j
  · subst h
    simp only [if_true]
    cases hx : s.chans[i]? with
    | none => simp
    | some c => rw [hx] at hf; simp at hf ⊢; exact hf
  · simp only [if_neg h]
    cases s.chans[j]? <;> rfl
@[simp] theorem tokenSize_count (s : State) (k n j) : (s.count k n).tokenSize j = s.tokenSize j := by unfold State.count; split <;> rfl
@[simp] theorem tokenSize_onPort (s : State) (n f j) : (s.onPort n f).tokenSize j = s.tokenSize j := by unfold State.onPort; split <;> rfl
@[simp] theorem tokenSize_onEe (s : State) (n f j) : (s.onEe n f).tokenSize j = s.tokenSize j := by unfold State.onEe; split <;> rfl
@[simp] theorem tokenSize_irq (s : State) (x j) : (s.irq x).tokenSize j = s.tokenSize j := rfl
@[simp] theorem tokenSize_memWrite (s : State) (a bs j) : (s.memWrite a bs).tokenSize j = s.tokenSize j := rfl
@[simp] theorem tokenSize_winWrite (s : State) (a bs j) : (s.winWrite a bs).tokenSize j = s.tokenSize j := rfl
@[simp] theorem tokenSize_clearGuarantee (s : State) (n j) : (s.clearGuarantee n).tokenSize j = s.tokenSize j := by unfold State.clearGuarantee; split <;> rfl
@[simp] theorem tokenSize_writeLines (s : State) (c h e ws j) : (s.writeLines c h e ws).tokenSize j = s.tokenSize j := by
  unfold State.writeLines; exact tokenSize_count _ _ _ _
@[simp] theorem tokenSize_storeEntry (s : State) (i j) : (s.storeEntry i).tokenSize j = s.tokenSize j := by
  unfold State.storeEntry; split
  · exact tokenSize_memWrite _ _ _ _
  · rfl
@[simp] theorem tokenSize_syncEntry (s : State) (i j) : (s.syncEntry i).tokenSize j = s.tokenSize j := by unfold State.syncEntry; split <;> simp
@[simp] theorem tokenSize_dropToken (s : State) (i n j) : (s.dropToken i n).tokenSize j = s.tokenSize j := by
  unfold State.dropToken; dsimp only; split <;> simp [tokenSize_onChan, Entry.addDropped]
@[simp] theorem tokenSize_sendPacket (s : State) (k o j) : (s.sendPacket k o).tokenSize j = s.tokenSize j := by
  unfold State.sendPacket
  repeat' split
  all_goals first
    | (simp; done)
    | (simp; exact (tokenSize_chans rfl j).trans (tokenSize_onChan s k.channel j (fun c => { c with ent := { c.ent with state := 2 } }) rfl))
@[simp] theorem tokenSize_arrive (s : State) (i t j) : (s.arrive i t).tokenSize j = s.tokenSize j := by
  unfold State.arrive
  dsimp only
  repeat' split
  all_goals simp [tokenSize_onChan]
theorem credit_tokenBytes (c : Chan) (i n) : (c.credit i n).ent.tokenBytes = c.ent.tokenBytes := by
  unfold Chan.credit; dsimp only; repeat' split
  all_goals rfl
@[simp] theorem tokenSize_deliver (s : State) (i t j) : (s.deliver i t).tokenSize j = s.tokenSize j := by
  unfold State.deliver
  dsimp only
  repeat' split
  all_goals simp [tokenSize_onChan, credit_tokenBytes]
@[simp] theorem tokenSize_issueTo (s : State) (i k t j) : (s.issueTo i k t).tokenSize j = s.tokenSize j := by
  unfold State.issueTo
  dsimp only
  repeat' split
  all_goals first
    | (simp; done)
    | (apply tokenSize_foldl; intro s a; simp)
theorem tokenSize_issueAll (i j : Nat) (l : List (List Token)) : ∀ (s : State) (k : Nat), (s.issueAll i k l).tokenSize j = s.tokenSize j := by
  induction l with
  | nil => intro s k; rfl
  | cons a l ih => intro s k; rw [State.issueAll, ih, tokenSize_foldl _ _ (fun s t => tokenSize_issueTo s i k t j)]
theorem record_tokenBytes (c : Chan) (m x ts d) : (c.record m x ts d).ent.tokenBytes = c.ent.tokenBytes := by
  unfold Chan.record
  dsimp only
  repeat' split
  all_goals rfl
/-- A token sent leaves TOKEN_BYTES as its entry, once found, has them. -/
theorem tokenSize_send (s : State) (i m x ts a b c j) : (s.send i m x ts a b c).tokenSize j = s.tokenSize j ∨ (s.send i m x ts a b c).tokenSize j = (s.lookEntry i).tokenSize j := by
  unfold State.send
  split
  · left; simp
  · right
    dsimp only
    split
    · rw [tokenSize_issueAll, tokenSize_count, tokenSize_onChan]; exact record_tokenBytes _ _ _ _ _
    · rw [tokenSize_issueAll, tokenSize_onChan]; exact record_tokenBytes _ _ _ _ _

end Sys2Proof.Machine
end

