-- ==== Sys2Proof/Laws/Units.lean ====
section
/-! SUPPORT. Laws/Units.lean: one unit of many changed, as a record update. -/

namespace Sys2Proof.Machine

open Sys2Proof

/-- Setting an element in range. -/
theorem setIfInBounds_of_lt {α : Type} {n : Nat} (v : Vector α n) (i : Nat) (x : α) (h : i < n) : v.setIfInBounds i x = v.set i x h := by
  apply Vector.ext; intro j hj; simp [Vector.getElem_setIfInBounds, Vector.getElem_set]

/-- Setting an element out of range does nothing. -/
theorem setIfInBounds_of_not_lt {α : Type} {n : Nat} (v : Vector α n) (i : Nat) (x : α) (h : ¬ i < n) : v.setIfInBounds i x = v := by
  apply Vector.ext; intro j hj; rw [Vector.getElem_setIfInBounds, if_neg (by omega)]

/-- The later of two settings of one element stands. -/
theorem setIfInBounds_twice {α : Type} {n : Nat} (v : Vector α n) (i : Nat) (x y : α) : (v.setIfInBounds i x).setIfInBounds i y = v.setIfInBounds i y := by
  apply Vector.ext; intro j hj; simp [Vector.getElem_setIfInBounds]

/-- An element set in range is read back. -/
theorem getD_setIfInBounds {α : Type} {n : Nat} (v : Vector α n) (i : Nat) (x d : α) (h : i < n) : (v.setIfInBounds i x).getD i d = x := by
  simp [Vector.getD, h]

/-- A pin changed, as a record update. -/
theorem onPin_eq (s : State) (n : Nat) (f : Pin → Pin) : s.onPin n f = { s with time := { s.time with pins := s.time.pins.setIfInBounds n (f (s.pin n)) } } := by
  unfold State.onPin State.pin
  split
  next h => simp [Vector.getD, h, setIfInBounds_of_lt]
  next h =>
    have : s.time.pins.setIfInBounds n (f (s.time.pins.getD n Pin.idle)) = s.time.pins := setIfInBounds_of_not_lt _ _ _ h
    rw [this]

/-- A generator changed, as a record update. -/
theorem onGen_eq (s : State) (n : Nat) (f : Gen → Gen) : s.onGen n f = { s with time := { s.time with gens := s.time.gens.setIfInBounds n (f (s.gen n)) } } := by
  unfold State.onGen State.gen
  split
  next h => simp [Vector.getD, h, setIfInBounds_of_lt]
  next h =>
    have : s.time.gens.setIfInBounds n (f (s.time.gens.getD n Gen.idle)) = s.time.gens := setIfInBounds_of_not_lt _ _ _ h
    rw [this]

/-- A record port changed, as a record update. -/
theorem onRec_eq (s : State) (n : Nat) (f : RecPort → RecPort) : s.onRec n f = { s with time := { s.time with recPorts := s.time.recPorts.setIfInBounds n (f (s.recPort n)) } } := by
  unfold State.onRec State.recPort
  split
  next h => simp [Vector.getD, h, setIfInBounds_of_lt]
  next h =>
    have : s.time.recPorts.setIfInBounds n (f (s.time.recPorts.getD n ⟨[], false⟩)) = s.time.recPorts := setIfInBounds_of_not_lt _ _ _ h
    rw [this]

/-- Other elements stay. -/
theorem getD_setIfInBounds_ne {α : Type} {n : Nat} (v : Vector α n) (i j : Nat) (x d : α) (h : i ≠ j) : (v.setIfInBounds i x).getD j d = v.getD j d := by
  simp [Vector.getD, h]

/-- A time link changed, as a record update. -/
theorem onTimePort_eq (s : State) (n : Nat) (f : TimePort → TimePort) : s.onTimePort n f = { s with time := { s.time with links := s.time.links.setIfInBounds n (f (s.timePort n)) } } := by
  unfold State.onTimePort State.timePort
  split
  next h => simp [Vector.getD, h, setIfInBounds_of_lt, State.onTime]
  next h =>
    have : s.time.links.setIfInBounds n (f (s.time.links.getD n TimePort.silent)) = s.time.links := setIfInBounds_of_not_lt _ _ _ h
    rw [this]

/-- A Solder port changed, as a record update. -/
theorem onPort_eq (s : State) (n : Nat) (f : Port → Port) : s.onPort n f = { s with ports := s.ports.setIfInBounds n (f (s.port n)) } := by
  unfold State.onPort State.port
  split
  next h => simp [Vector.getD, h, setIfInBounds_of_lt]
  next h =>
    have : s.ports.setIfInBounds n (f (s.ports.getD n Port.down)) = s.ports := setIfInBounds_of_not_lt _ _ _ h
    rw [this]

/-- An Ethernet port changed, as a record update. -/
theorem onEth_eq (s : State) (n : Nat) (f : EthPort → EthPort) : s.onEth n f = { s with eth := s.eth.setIfInBounds n (f (s.ethPort n)) } := by
  unfold State.onEth State.ethPort
  split
  next h => simp [Vector.getD, h, setIfInBounds_of_lt]
  next h =>
    have : s.eth.setIfInBounds n (f (s.eth.getD n EthPort.idle)) = s.eth := setIfInBounds_of_not_lt _ _ _ h
    rw [this]

/-- A stack changed, as a record update. -/
theorem onStack_eq (s : State) (n : Nat) (f : Stack → Stack) : s.onStack n f = { s with memStacks := s.memStacks.setIfInBounds n (f (s.stack n)) } := by
  unfold State.onStack State.stack
  split
  next h => simp [h, setIfInBounds_of_lt]
  next h =>
    have : s.memStacks.setIfInBounds n (f (s.memStacks.toList.getD n Stack.reset)) = s.memStacks := setIfInBounds_of_not_lt _ _ _ h
    rw [this]

/-- A core changed is read back and the others stay. -/
theorem onCore_get (s : State) (c k : Fin 7) (f : Core → Core) : (s.onCore c f).cores[k] = if k = c then f s.cores[c] else s.cores[k] := by
  unfold State.onCore
  simp only
  by_cases h : k = c
  · subst h; simp
  · rw [if_neg h]
    have : c.val ≠ k.val := fun h2 => h (Fin.ext h2.symm)
    simp [this]

end Sys2Proof.Machine
end

