-- ==== Sys2Proof/Laws/Wire.lean ====
section
/-! SUPPORT. Laws/Wire.lean: packets of a Solder port taken or not, credits and time messages. -/

namespace Sys2Proof.Machine

open Sys2Proof

/-- A packet with a bad CRC or SEQ is not taken (R287). -/
theorem receive_bad {s : State} {r : Rx} (h1 : (s.port r.port).up = true) (h2 : (s.port r.port).retraining = false) (h : r.crcOk = false ∨ r.pkt.seq ≠ (s.port r.port).rxSeq) :
    s.receive r = (false, ({ s with ports := s.ports.setIfInBounds r.port { s.port r.port with ctl := some (true, (s.port r.port).rxSeq) } } : State).count (cSldCrc r.port) 1) := by
  unfold State.receive
  have : (!r.crcOk || r.pkt.seq != (s.port r.port).rxSeq) = true := by rcases h with h | h <;> simp [h]
  simp only [h1, h2, this, Bool.not_true, Bool.or_self, Bool.false_eq_true, if_false, if_true, onPort_eq]

/-- A packet that is taken moves SEQ on (R287). -/
theorem receive_good {s : State} {r : Rx} (h1 : (s.port r.port).up = true) (h2 : (s.port r.port).retraining = false) (h3 : r.crcOk = true) (h4 : r.pkt.seq = (s.port r.port).rxSeq) {n : Nat}
   (hn : n = ((s.port r.port).rxSeq + 1) % 256) :
    s.receive r = (true, { s with ports := s.ports.setIfInBounds r.port (if (s.port r.port).unacked + 1 = 32 then { s.port r.port with rxSeq := n, unacked := 0, ctl := some (false, n) }
        else { s.port r.port with rxSeq := n, unacked := (s.port r.port).unacked + 1 }) }) := by
  unfold State.receive
  have : (!r.crcOk || r.pkt.seq != (s.port r.port).rxSeq) = false := by simp [h3, h4]
  simp only [h1, h2, this, Bool.not_true, Bool.or_self, Bool.false_eq_true, if_false, onPort_eq, hn]

/-- Credits leave a channel shedding or not. -/
theorem credit_shed (c : Chan) (k n : Nat) : (c.credit k n).ent.shed = c.ent.shed := by
  unfold Chan.credit; dsimp only; split <;> split <;> rfl

/-- A credit to a channel that does not shed is a credit and nothing else. -/
theorem creditIn_hold {s : State} {i : Nat} (h : (s.chan i).ent.shed = false) (k n : Nat) : s.creditIn i k n = s.onChan i (fun c => c.credit k n) := by
  unfold State.creditIn
  dsimp only
  split
  · rfl
  · have : ((s.onChan i (fun c => c.credit k n)).chan i).ent.shed = false := by
      unfold State.chan State.onChan
      unfold State.chan at h
      dsimp only
      rw [List.getD_eq_getElem?_getD] at h ⊢
      rw [List.getElem?_modify]
      simp only [if_true]
      cases hc : s.chans[i]? with
      | none => simp [hc] at h ⊢; exact h
      | some c => simp [hc, credit_shed] at h ⊢; exact h
    rw [this, Bool.false_and, if_neg Bool.false_ne_true]

/-- A state of holdover that does not change is not noted. -/
theorem timeNote_same {s t : State} (h : t.time.holdover = s.time.holdover) : State.timeNote s t = t := by
  unfold State.timeNote; rw [h]; cases s.time.holdover <;> rfl

/-- Electing a parent keeps holdover, source and time. -/
theorem elect_keep (s : State) : s.elect.time.holdover = s.time.holdover ∧ s.elect.free = s.free ∧ s.elect.now = s.now ∧ s.elect.time.source = s.time.source := by
  unfold State.elect
  dsimp only
  split
  · split <;> exact ⟨rfl, rfl, rfl, rfl⟩
  · split <;> split <;> exact ⟨rfl, rfl, rfl, rfl⟩

/-- An offset below TIME_STEP_LIMIT is corrected by slewing (R218). -/
theorem correct_small (s : State) (o : Int) (run : Body → Holder → State → State) (h : o.natAbs < s.reg (rTime 0x01C) * 16000 * 256) :
    s.correct o run = { s with free := s.free + 1, time := { s.time with offset := o, slew := o, freq := ((Config.free s.free % (2 * freqLimit + 1) : Nat) : Int) - freqLimit } } := by
  unfold State.correct
  dsimp only
  rw [if_pos]
  · rfl
  · have : State.reg (s.onTime (fun t => { t with offset := o, slew := o })).steer (rTime 0x01C) = s.reg (rTime 0x01C) := rfl
    rw [this]; omega

/-- Counting leaves the time unit alone. -/
theorem count_time (s : State) (k n : Nat) : (s.count k n).time = s.time ∧ (s.count k n).free = s.free ∧ (s.count k n).now = s.now := by
  unfold State.count; split <;> exact ⟨rfl, rfl, rfl⟩

/-- Receiving a packet leaves the time unit alone. -/
theorem receive_keep (s : State) (r : Rx) : (s.receive r).2.time = s.time ∧ (s.receive r).2.free = s.free ∧ (s.receive r).2.now = s.now := by
  unfold State.receive
  dsimp only
  split
  · exact ⟨rfl, rfl, rfl⟩
  · split
    · obtain ⟨a, b, c⟩ := count_time (s.onPort r.port (fun p => { p with ctl := some (true, p.rxSeq) })) (cSldCrc r.port) 1
      rw [a, b, c]; simp only [onPort_eq]; exact ⟨trivial, trivial, trivial⟩
    · simp only [onPort_eq]; exact ⟨trivial, trivial, trivial⟩

/-- A time message heard keeps holdover and time. -/
theorem hear_keep (s : State) (x : TimeRx) (m : List Byte) : (s.hearTime x m).time.holdover = s.time.holdover ∧ (s.hearTime x m).free = s.free ∧ (s.hearTime x m).now = s.now ∧
    (s.hearTime x m).time.source = s.time.source := by
  unfold State.hearTime
  obtain ⟨p, hp⟩ : ∃ p, x.rx.port = p := ⟨_, rfl⟩
  rw [hp]
  obtain ⟨a, b, c, d⟩ := elect_keep ((s.noteSeq p (leAt m 8 4)).onTimePort p (fun q => { q with neigh := some (neighOf m x.valid) }))
  rw [a, b, c, d]
  unfold State.noteSeq
  simp only [onTimePort_eq]
  obtain ⟨e1, e2, e3⟩ := count_time s (rTime 0x03C)
    (if (match (s.timePort p).rxSeq with | some x => (leAt m 8 4 + 2 ^ 32 - (x + 1) % 2 ^ 32) % 2 ^ 32 | none => 0) < 2 ^ 31 then
      (match (s.timePort p).rxSeq with | some x => (leAt m 8 4 + 2 ^ 32 - (x + 1) % 2 ^ 32) % 2 ^ 32 | none => 0) else 0)
  refine ⟨?_, ?_, ?_, ?_⟩
  · exact congrArg TimeUnit.holdover e1
  · exact e2
  · exact e3
  · exact congrArg TimeUnit.source e1

/-- A time message sent keeps holdover. -/
theorem send_keep (s : State) (p k t : Nat) : (s.sendTime p k t).time.holdover = s.time.holdover := by
  unfold State.sendTime; simp only [onPort_eq, onTimePort_eq]

/-- A port with nothing waiting sends nothing. -/
theorem flush_none (n : Nat) (p : Port) (h : p.waiting = []) : Port.flush n p = p := by
  cases n with
  | zero => rfl
  | succ n =>
    have hp : p.pick = none := by
      unfold Port.pick
      rw [h, List.findSome?_eq_none_iff]
      intro v _; rfl
    unfold Port.flush; rw [hp]

end Sys2Proof.Machine
end

