-- ==== Sys2Proof/Tests/Slice0.lean ====
section
/-! SUPPORT. Tests/Slice0.lean: the smoke test of well-formedness, with an ill-formed term for each check; witnesses for the hypotheses of the statements; a few worked values of the spec. -/

namespace Sys2Proof.Tests

open Sys2Proof Sys2Proof.Machine

/-! ## Well-formedness: what the checks accept, and an ill-formed term for each check -/

/-- A plain header. -/
def hd : Header := ⟨false, false, false, false, false, 0, false, 0, 0, 0⟩
/-- A queue of core 0. -/
def q0 : QueueId := ⟨.tc 0, 0⟩
def laO : LaunchAtOps := ⟨3, 0, 100⟩
def juO : JumpOps := ⟨0, 1, 2⟩
def baO : BarrierOps := ⟨1, 0, 0⟩
def coO : CompleteOps := ⟨1, 2, 1⟩
def trO : TimeReadOps := ⟨64, 0⟩
def xfO : XferOps := ⟨64, 0, 0, 5⟩
def pgO : PageOps := ⟨4, 2, 2, 3⟩
def ptO : PageOps := ⟨4, 2, 1, 0⟩
def sfO : SpFillOps := ⟨8, 7, 2, 1, 4⟩
def scO : SpCopyOps := ⟨8, 16, 0, 2, 2, 2⟩
def nwO : NWriteOps := ⟨0, 0, 5, 0, 1, 0, 0, 0⟩
def cdO : SpCreditOps := ⟨5, 1⟩
def mmO : MatmulOps := ⟨0, 16, 32, 0, 31, 2, 2, 3, 3, 0, 1, 1⟩
def veO : VecOps := ⟨0, 16, 32, 48, 0, 3, 12, 12, 0, 0, 0⟩
def wcO : WConvOps := ⟨0, 16, 32, 0, 0, 0, 3, 3, 0, 0, 2, 0⟩
def ewO : EwinOps := ⟨64, 0, 3, 3, 2, 0, 0, 0, 1⟩
def paO : ParamOps := ⟨64, 1, 2, 0, 0, 0, 1⟩
def bdO : BandOps := ⟨1, 2, 16, 2⟩
def brO : BRowsOps := ⟨64, 1, 3, 1, 0, 3, 0⟩
def puO : PubOps := ⟨64, 5, 0, 1⟩
def poO : PubOps := ⟨64, 0, 0, 0⟩
def psO : PinSetOps := ⟨3, 2⟩
def ppO : PinPulseOps := ⟨3, 64⟩
def gsO : PgStartOps := ⟨1, 3, 100, 1000, 1, 0⟩
def caO : CapArmOps := ⟨3, 3, 0, 10, 20⟩
def swO : SctlOps := ⟨0x36, 0, 0, 2, 1, 0, 0, 0⟩
def ccO : CccOps := ⟨0x7E, 6, 0, 0⟩
def clO : CollOps := ⟨0, 0, 64, 0, 12, 0, 1⟩
def glO : EthGclOps := ⟨64, 0, 1000000, 4⟩
def pk : Packet := ⟨1, 1, 0, 0, 1, 5, 0, 0, []⟩
def rx : Rx := ⟨2, pk, true⟩
def cp : CamPkt := ⟨1, 0, 0x2B, 0, 1, true, [], 100⟩

theorem test_wf_accepts : ([.nop, .launchAt laO, .jump juO, .barrier baO, .complete coO, .timeRead trO, .xfer xfO, .pgPolicy pgO, .pgTouch ptO, .spFill sfO, .spCopy scO, .nWrite nwO,
    .spCredit cdO, .matmul mmO, .matmulS2 mmO, .vadd veO, .vunary veO, .vact veO, .vepilogue veO, .vqs2 { veO with fmtOut := 4 }, .vquant { veO with fmtOut := 1 },
    .vdequant { veO with fmtIn := 1 }, .vrescale { veO with fmtIn := 11, fmtOut := 2 }, .vpool { veO with cLine := 0 }, .vargmax { veO with fmtOut := 11 }, .vpoolBwd veO,
    .wconv wcO, .wconvDiag wcO, .ewin ewO, .ppParam paO, .ppBand bdO, .ppBParam paO, .ppBRows brO, .pub puO, .pubOpen poO, .pinSet psO, .pinPulse ppO, .pgStart gsO, .pgStop ⟨31⟩,
    .capArm caO, .capDisarm ⟨31⟩, .sctlWrite swO, .sctlRead swO, .sctlCcc ccO, .sldColl clO, .ethFlow ⟨64, 0, 4⟩, .ethSend ⟨5, 7⟩, .ethGcl glO, .invRecord ⟨131071, 5, 0⟩,
    .invIndicate ⟨0, 250⟩] : List Body).all Body.wf = true := by decide

theorem test_wf_refuses_queue_header : ([.nop ⟨.tc 0, 5⟩ hd, .nop ⟨.ee 0, 2⟩ hd, .nop ⟨.sp 0, 1⟩ hd, .nop ⟨.invar, 4⟩ hd, .nop q0 { hd with waitCtr := 64 }, .nop q0 { hd with signalCtr := 64 },
    .nop q0 { hd with waitValue := 65536 }, .nop q0 { hd with signalUnit := 16384 }] : List Instr).all (fun i => !i.wf) = true := by decide

theorem test_wf_refuses_control : ([.launchAt { laO with timer := 64 }, .launchAt { laO with mode := 2 }, .launchAt { laO with tick := 2 ^ 64 }, .jump { juO with target := 2 ^ 32 },
    .jump { juO with count := 2 ^ 32 }, .jump { juO with slot := 4 }, .barrier { baO with id := 16 }, .barrier { baO with scope := 2 }, .barrier { baO with advance := 2 },
    .complete { coO with doorbell := 64 }, .complete { coO with ringPages := 0 }, .complete { coO with ringPages := 17 }, .timeRead { trO with dest := 4 }, .timeRead { trO with kind := 2 }] :
    List Body).all (fun b => !b.wf) = true := by decide

theorem test_wf_refuses_memory : ([.xfer { xfO with descAddr := 32 }, .xfer { xfO with descKind := 2 }, .xfer { xfO with xflags := 8 }, .pgPolicy { pgO with pages := 0 },
    .pgPolicy { pgO with pages := 2 ^ 24 + 1 }, .pgPolicy { pgO with fill := 4 }, .pgPolicy { pgO with device := 1024 }, .pgTouch { ptO with pages := 0 }, .pgTouch { ptO with pages := 2 ^ 24 + 1 },
    .pgTouch { ptO with fill := 2 }, .pgTouch { ptO with device := 1 }, .spFill { sfO with lines := 0 }, .spFill { sfO with lines := 782337 }, .nWrite { nwO with marks := 4 },
    .spCredit { cdO with count := 0 }, .spCredit { cdO with count := 256 }] : List Body).all (fun b => !b.wf) = true := by decide

theorem test_wf_refuses_array : ([.matmul { mmO with mode := 512 }, .matmul { mmO with accLine := 36 }, .matmul { mmO with fmtA := 0 }, .matmul { mmO with fmtB := 11 },
    .matmul { mmO with fmtA := 9 }, .matmul { mmO with mode := 24 }, .matmul { mmO with mode := 32, fmtA := 9, fmtB := 9 }, .matmul { mmO with mode := 256, fmtA := 4 },
    .matmul { mmO with mode := 256, fmtB := 4 }, .matmul { mmO with mode := 288 }, .matmulS2 { mmO with mode := 256 }, .matmul { mmO with scaleLine := 8 }, .matmul { mmO with kM1 := 65536 },
    .matmul { mmO with mM1 := 128 }, .matmul { mmO with nM1 := 128 }, .wconv { wcO with mode := 1024 }, .wconv { wcO with mode := 2 }, .wconv { wcO with mode := 4 }, .wconv { wcO with mode := 32 },
    .wconv { wcO with mode := 24 }, .wconv { wcO with fmtB := 12 }, .wconv { wcO with mode := 64, fmtB := 9 }, .wconv { wcO with mode := 256, fmtB := 4 }, .wconv { wcO with mode := 320 },
    .wconvDiag { wcO with accLine := 4 }, .wconv { wcO with scaleLine := 8 }, .wconvDiag { wcO with mM1 := 128 }, .wconv { wcO with nM1 := 128 }] : List Body).all (fun b => !b.wf) = true := by decide

theorem test_wf_refuses_vector : ([.vadd { veO with vflags := 128 }, .vsub { veO with vflags := 3 }, .vmul { veO with vflags := 5 }, .vadd { veO with vflags := 6 }, .vadd { veO with vflags := 24 },
    .vmax { veO with fmtIn := 0 }, .vmin { veO with fmtOut := 13 }, .vadd { veO with func := 256 }, .vfma { veO with fmtIn := 11 }, .vunary { veO with func := 7 },
    .vunary { veO with func := 3, fmtIn := 11 }, .vcmp { veO with func := 4 }, .vsel { veO with fmtIn := 15 }, .vexp2 { veO with fmtIn := 11 }, .vlog2 { veO with fmtIn := 11 },
    .vrecip { veO with fmtIn := 11 }, .vrsqrt { veO with fmtIn := 11 }, .vact { veO with func := 7 }, .vact { veO with fmtIn := 11 }, .vreduce { veO with func := 4 },
    .vepilogue { veO with func := 7 }, .vepilogue { veO with fmtIn := 11 }, .vepilogue { veO with func := 128, vflags := 1 }] : List Body).all (fun b => !b.wf) = true := by decide

theorem test_wf_refuses_quantised : ([.vqs2 { veO with func := 2, fmtOut := 4 }, .vqs2 { veO with fmtIn := 1, fmtOut := 4 }, .vqs2 veO, .vquant { veO with fmtIn := 1, fmtOut := 4 }, .vquant veO,
    .vdequant veO, .vdequant { veO with fmtIn := 1, fmtOut := 2 }, .vrescale veO, .vrescale { veO with fmtIn := 11, fmtOut := 4 }, .vpool { veO with func := 4, cLine := 0 },
    .vpool { veO with aLine := 1, cLine := 0 }, .vpool veO, .vargmax { veO with func := 2, fmtOut := 11 }, .vargmax veO, .vargmax { veO with fmtOut := 3, colsM1 := 32768 },
    .vargmax { veO with fmtOut := 3, vflags := 32, rowsM1 := 32768 }, .vpoolBwd { veO with func := 3 }, .vpoolBwd { veO with aLine := 1 }] : List Body).all (fun b => !b.wf) = true := by decide

theorem test_wf_refuses_picture : ([.ewin { ewO with descAddr := 1 }, .ewin { ewO with coutM1 := 64 }, .ewin { ewO with fmtOut := 0 }, .ewin { ewO with eflags := 16 }, .ewin { ewO with eflags := 3 },
    .ewin { ewO with credits := 256 }, .ppParam { paO with addr := 4 }, .ppParam { paO with camera := 16 }, .ppParam { paO with group := 8 }, .ppParam { paO with mode := 2 },
    .ppBand { bdO with camera := 16 }, .ppBand { bdO with cores := 0 }, .ppBand { bdO with cores := 7 }, .ppBand { bdO with bandRows := 0 }, .ppBand { bdO with halo := 17 },
    .ppBParam { paO with addr := 4 }, .ppBParam { paO with camera := 16 }, .ppBParam { paO with group := 8 }, .ppBParam { paO with mode := 1 }, .ppBRows { brO with camera := 16 },
    .ppBRows { brO with fmt := 2 }, .ppBRows { brO with rows := 0 }, .ppBRows { brO with channels := 4 }, .ppBRows { brO with bflags := 4 }, .pub { puO with hdr := 16 },
    .pub { puO with hdr := 8192 * 4096 }, .pub { puO with pctr := 16 }, .pubOpen { poO with hdr := 16 }, .pubOpen { poO with hdr := 8192 * 4096 }, .pubOpen { poO with channel := 1 },
    .pubOpen { poO with slot := 1 }, .pubOpen { poO with pctr := 1 }] : List Body).all (fun b => !b.wf) = true := by decide

theorem test_wf_refuses_pins : ([.pinSet { psO with pin := 32 }, .pinSet { psO with level := 3 }, .pinPulse { ppO with pin := 32 }, .pinPulse { ppO with width := 0 }, .pgStart { gsO with pg := 32 },
    .pgStart { gsO with pin := 32 }, .pgStart { gsO with width := 0 }, .pgStart { gsO with periodD := 0 }, .pgStart { gsO with width := 1, periodN := 63 }, .pgStart { gsO with width := 1000 },
    .pgStop ⟨32⟩, .capArm { caO with pin := 32 }, .capArm { caO with edges := 4 }, .capArm { caO with length := 21 }, .capDisarm ⟨32⟩, .sctlWrite { swO with target := 128 },
    .sctlWrite { swO with sflags := 16 }, .sctlWrite { swO with sflags := 3 }, .sctlWrite { swO with len := 0 }, .sctlWrite { swO with len := 17 }, .sctlWrite { swO with camera := 16 },
    .sctlWrite { swO with group := 8 }, .sctlRead { swO with target := 128 }, .sctlRead { swO with sflags := 16 }, .sctlRead { swO with sflags := 3 }, .sctlRead { swO with len := 0 },
    .sctlRead { swO with len := 17 }, .sctlCcc { ccO with target := 128 }, .sctlCcc { ccO with len := 17 }] : List Body).all (fun b => !b.wf) = true := by decide

theorem test_wf_refuses_network_invar : ([.sldColl { clO with elements := 0 }, .sldColl { clO with elements := 2 ^ 28 + 1 }, .sldColl { clO with op := 5 }, .sldColl { clO with scope := 5 },
    .sldColl { clO with collId := 256 }, .sldColl { clO with fmt := 1 }, .sldColl { clO with op := 3, fmt := 0 }, .ethFlow ⟨64, 256, 1⟩, .ethSend ⟨5, 8⟩, .ethGcl { glO with cycleNs := 0 },
    .ethGcl { glO with cycleNs := 1000000001 }, .ethGcl { glO with entries := 0 }, .ethGcl { glO with entries := 257 }, .invRecord ⟨131072, 5, 0⟩, .invIndicate ⟨131072, 1⟩,
    .invIndicate ⟨0, 251⟩] : List Body).all (fun b => !b.wf) = true := by decide

theorem test_wf_accepts_events : ([.launchTick 63, .gclCycleStart 3, .spDebugRead 5 0, .spDebugReadDone 5, .regWrite 0x10 0 true, .regAddr 0x10 true, .registerWrite 0x3FFFC 0, .hostReadBurst 0 255,
    .hostWriteBurst 32 (List.replicate 32 0) 0 0, .mrWrite 3 255 255, .writeX 3, .refresh 3, .selfRefreshEntry 3 false, .selfRefreshExit 3, .resetRelease 7 3 true true, .firmwareUp [(7, 0)],
    .ppsInEdge 0, .eventPinEdge 31 0 true, .windowClose 31, .recFlush 3, .pgEdge 31, .mclkSwitch 15, .pinCalibration 31 true, .sync ⟨rx, 0, true⟩, .ptpMessage 3 2 true none 255, .frameStartPacket cp,
    .longPacket cp, .frameEndPacket cp, .frameTimeout 15 3, .memoryFedFrame 3, .ibi 7 127 255, .creditArrival 65535 0 0, .invarInput 131071, .data rx, .linkCtrl 7 true 255 none,
    .portRetrainDone 7 0, .laneDegrade 7 4, .laneRetrainDone 7 4 true 0, .flowFrameRx 3 65535 [], .stackReadReturn ⟨7, 8, some (List.replicate 64 0), 2 ^ 32 - 1, true, 15, 32767⟩, .stackReadReturn ⟨0, 0, none, 0, false, 0, 0⟩, .linkRetrainDone 7 8 true,
    .stackScrub 7 127 32767 2 (2 ^ 24 - 1), .spRepair 5 786431, .faultResolved (2 ^ 24 - 1) [], .columnSwap 5 3, .domainOnDone 95, .bankGroupZeroed 5 3, .powerSample ⟨List.replicate 7 none, false⟩,
    .gateInterval 3, .pulseEnd 31, .dynamicAddressAssignment 127, .commandCompletion q0] : List Instr).all Instr.wf = true := by decide

theorem test_wf_refuses_registers_host : ([.launchTick 64, .gclCycleStart 4, .spDebugRead 6 0, .spDebugReadDone 6, .regWrite (2 ^ 24) 0 true, .regAddr (2 ^ 24) true, .registerWrite 0x40000 0, .registerWrite 2 0,
    .hostReadBurst (2 ^ 33) 0, .hostReadBurst 16 0, .hostReadBurst 0 256, .hostWriteBurst (2 ^ 33) (List.replicate 32 0) 0 0, .hostWriteBurst 16 (List.replicate 32 0) 0 0, .hostWriteBurst 0 [] 0 0,
    .hostWriteBurst 0 (List.replicate 32 0) (2 ^ 32) 0, .hostWriteBurst 0 (List.replicate 32 0) 0 3, .mrWrite 4 0 0, .mrWrite 0 256 0, .mrWrite 0 0 256, .writeX 4, .refresh 4, .selfRefreshEntry 4 true,
    .selfRefreshExit 4, .resetRelease 8 0 true true, .resetRelease 0 4 true true, .firmwareUp [(8, 0)], .commandCompletion ⟨.time, 1⟩] : List Instr).all (fun i => !i.wf) = true := by decide

theorem test_wf_refuses_events : ([.ppsInEdge (2 ^ 64), .eventPinEdge 32 0 true, .windowClose 32, .recFlush 4, .pgEdge 32, .mclkSwitch 16, .pinCalibration 32 true, .sync ⟨{ rx with port := 8 }, 0, true⟩,
    .delayReq ⟨{ rx with port := 8 }, 0, true⟩, .delayResp ⟨{ rx with port := 8 }, 0, true⟩, .ptpMessage 4 0 true none, .ptpMessage 0 0 true none 256, .frameStartPacket { cp with cam := 16 }, .longPacket { cp with vc := 16 },
    .frameEndPacket { cp with header := 3 }, .frameTimeout 16 0, .frameTimeout 0 4, .memoryFedFrame 4, .ibi 8 0 0, .ibi 0 128 0, .ibi 0 0 256, .creditArrival 65536 0 0, .invarInput 131072,
    .data { rx with port := 8 }, .credit { rx with port := 8 }, .mcastData { rx with port := 8 } none, .mcastCredit { rx with port := 8 }, .solderBarrier { rx with port := 8 }, .coll { rx with port := 8 },
    .memReq { rx with port := 8 }, .memResp { rx with port := 8 }, .linkCtrl 8 true 0 none, .linkCtrl 0 true 256 none, .portRetrainDone 8 0, .laneDegrade 8 0, .laneDegrade 0 5,
    .laneRetrainDone 8 0 true 0, .laneRetrainDone 0 5 true 0, .flowFrameRx 4 0 [], .flowFrameRx 0 65536 [], .stackReadReturn ⟨8, 0, none, 0, true, 0, 0⟩,
    .stackReadReturn ⟨0, 9, none, 0, true, 0, 0⟩, .stackReadReturn ⟨0, 0, some [], 0, true, 0, 0⟩, .stackReadReturn ⟨0, 0, none, 2 ^ 32, true, 0, 0⟩,
    .stackReadReturn ⟨0, 0, none, 0, true, 16, 0⟩, .stackReadReturn ⟨0, 0, none, 0, true, 0, 32768⟩, .linkRetrainDone 8 0 true, .linkRetrainDone 0 9 true, .stackScrub 8 0 0 0 0, .stackScrub 0 128 0 0 0, .stackScrub 0 0 32768 0 0,
    .stackScrub 0 0 0 3 0, .stackScrub 0 0 0 0 (2 ^ 24), .spRepair 6 0, .spRepair 0 786432, .faultResolved (2 ^ 24) [], .columnSwap 6 0, .columnSwap 0 4, .domainOnDone 96, .bankGroupZeroed 6 0, .bankGroupZeroed 0 4,
    .powerSample ⟨[], false⟩, .gateInterval 4, .pulseEnd 32, .dynamicAddressAssignment 128] : List Instr).all (fun i => !i.wf) = true := by decide

/-- No row of the block's table gives bits: no word spells a command. -/
theorem test_no_word_spells_a_command : [(8, 0), (16, 1), (32, 0xFFFF_FFFF), (64, 5)].all (fun p => (decodeTableWord p.1 p.2).isNone) = true := by decide

/-! ## States for the witnesses -/

/-- The block awake and serving, with nothing loaded. -/
def awake : State := { State.reset with boot := { State.reset.boot with inReset := false, up := true } }
/-- The block awake with a running main stream whose one list on `q` holds the commands. -/
def running (q : QueueId) (cs : List Command) : State :=
  { awake with job := { awake.job with state := .running, lists := [⟨q, 0, 0, cs⟩] } }
/-- The same for a queue of Invar. -/
def runningInvar (q : QueueId) (cs : List Command) : State := { awake with job := { awake.job with invLists := [⟨q, 0, 0, cs⟩] } }
/-- A queue of the timing unit, of a Solder-port unit, of a sensor-control port, of an Ethernet port and of a pipeline's parts. -/
def qTime : QueueId := ⟨.time, 0⟩
def qSp : QueueId := ⟨.sp 0, 0⟩
def qSctl : QueueId := ⟨.sctl 0, 0⟩
def qEth : QueueId := ⟨.eth 0, 0⟩
def qFront : QueueId := ⟨.front 0, 0⟩
def qBack : QueueId := ⟨.back 0, 0⟩
def qEe : QueueId := ⟨.ee 0, 0⟩
def qInv : QueueId := ⟨.invar, 0⟩
/-- A record of a queue whose next command may run. -/
def qs : QState := QState.start
/-- A channel entry and a channel of one receiver with two credits. -/
def en : Entry := ⟨8, 1, false, true, false, false, 0, 4, 0, 0, 2, 0, 16, 16, 1, 1, 64, 0, false, 0, 0, false, false, false, 0, 0, 0, 0, 0⟩
def ch : Chan := ⟨en, [⟨2, [], false, false⟩], 2, none, 1, 0, ⟨0, 0, 0, 0, 0, 0⟩, [], 0, 0, false, 0, 0, none⟩
/-- The state with a channel 0. -/
def withChan (s : State) (c : Chan) : State := { s with chans := [c] }
/-- A stream with one placement that nothing keeps from a placement choice. -/
def st0 : Stream := ⟨7, 1, false, 0, 1, 0, 1, 1, 1, [], [], 0, [], [], [], [], 0, 0, [], [], [], [⟨[], []⟩], [[]], [], [⟨0, 0, [], [], [], [], [], [], []⟩], none⟩

/-! ## Witnesses: for each statement, states and operands that meet its hypotheses, clause by clause -/

theorem test_hyps_StepIdlesWhenNothingWaits : State.reset.pending = [] ∧ State.reset.boot.inReset = true ∧ awake.pending = [] ∧ awake.boot.inReset = false := by decide
theorem test_hyps_CommandsThatWaitStay : ∃ t, exec (.refresh 0) { awake with pending := [.hcReset] } = .next t := ⟨_, rfl⟩
theorem test_hyps_OnlyResetEventsChangeReset : isResetEvent (.refresh 0) = false ∧ State.reset.boot.inReset = true ∧ exec (.refresh 0) State.reset = .next State.reset := ⟨rfl, rfl, rfl⟩
theorem test_hyps_ResetHoldsUntilRelease : State.reset.heldInReset = true ∧ step State.reset = .next State.reset := ⟨rfl, rfl⟩
theorem test_hyps_FusesOnlyBurn : ∃ t, step { State.reset with pending := [.resetAssert] } = .next t := ⟨_, rfl⟩
theorem test_hyps_ResetReleaseLatchesStraps : State.reset.boot.inReset = true := rfl

theorem test_hyps_NopAndBandMoveTheirQueueOnly : (running q0 [⟨hd, .nop⟩]).starts q0 ⟨hd, .nop⟩ = true ∧ (running qFront [⟨hd, .ppBand bdO⟩]).starts qFront ⟨hd, .ppBand bdO⟩ = true := by decide
theorem test_hyps_LaunchAtArmsItsTimer : (running qTime [⟨hd, .launchAt laO⟩]).starts qTime ⟨hd, .launchAt laO⟩ = true := by decide
/-- A queue with its loop slot 2 at each of the values that the clauses name. -/
def looping (v : Option Nat) (n : Nat) : State :=
  { running q0 [⟨hd, .jump { juO with count := n }⟩] with queues := [(queueKey q0, { qs with slots := Vector.replicate 4 v })] }
theorem test_hyps_JumpFollowsItsSlot : ((looping none 0).starts q0 ⟨hd, .jump { juO with count := 0 }⟩ = true ∧ ((looping none 0).queue q0).slots[juO.slot]? = some none) ∧
    ((looping none 1).starts q0 ⟨hd, .jump juO⟩ = true ∧ ((looping none 1).queue q0).slots[juO.slot]? = some none) ∧
    ((looping (some 1) 1).starts q0 ⟨hd, .jump juO⟩ = true ∧ ((looping (some 1) 1).queue q0).slots[juO.slot]? = some (some 1)) ∧
    ((looping (some 0) 1).starts q0 ⟨hd, .jump juO⟩ = true ∧ ((looping (some 0) 1).queue q0).slots[juO.slot]? = some (some 0)) := by decide
/-- Two queues that take part in one barrier. -/
def meeting : State := let s := running q0 []; { s with job := { s.job with lists := [⟨q0, 0, 0, [⟨hd, .barrier baO⟩]⟩, ⟨qTime, 1, 0, [⟨hd, .barrier baO⟩]⟩] } }
theorem test_hyps_BarrierArrives : meeting.starts q0 ⟨hd, .barrier baO⟩ = true ∧ qTime ∈ meeting.participants q0 baO.id ∧ qTime ≠ q0 ∧
    qTime ∉ (meeting.arrivals (barrierKey q0 baO.id)).queues := by decide
theorem test_hyps_BarrierReleases : ((running q0 [⟨hd, .barrier baO⟩]).starts q0 ⟨hd, .barrier baO⟩ = true ∧
      ∀ p ∈ (running q0 [⟨hd, .barrier baO⟩]).participants q0 baO.id, p = q0 ∨ p ∈ ((running q0 [⟨hd, .barrier baO⟩]).arrivals (barrierKey q0 baO.id)).queues) ∧
    ((running q0 [⟨hd, .barrier { baO with scope := 1 }⟩]).starts q0 ⟨hd, .barrier { baO with scope := 1 }⟩ = true ∧
      ∀ p ∈ (running q0 [⟨hd, .barrier { baO with scope := 1 }⟩]).participants q0 baO.id, p = q0 ∨ p ∈ ((running q0 [⟨hd, .barrier { baO with scope := 1 }⟩]).arrivals (barrierKey q0 baO.id)).queues) ∧
    ((runningInvar qInv [⟨hd, .barrier baO⟩]).starts qInv ⟨hd, .barrier baO⟩ = true ∧
      ∀ p ∈ (runningInvar qInv [⟨hd, .barrier baO⟩]).participants qInv baO.id, p = qInv ∨ p ∈ ((runningInvar qInv [⟨hd, .barrier baO⟩]).arrivals (barrierKey qInv baO.id)).queues) := by decide
/-- A COMPLETE in progress with its work finished. -/
def completeEntry : InProg := ⟨0, 0, 0, ⟨hd, .complete coO⟩, false, true, false, Mover.idle⟩
def completing : State := { running q0 [] with queues := [(queueKey q0, { qs with prog := [completeEntry], seq := 1 })] }
theorem test_hyps_CompleteWritesItsRecord : (running q0 [⟨hd, .complete coO⟩]).starts q0 ⟨hd, .complete coO⟩ = true ∧ completing.boot.inReset = false ∧
    (completing.queue q0).prog = [completeEntry] ∧ completeEntry.worked = true ∧ completeEntry.done = false ∧ completeEntry.cmd = ⟨hd, .complete coO⟩ ∧ (completing.queue q0).seq ≠ 0 ∧
    Memory.wf completing.window = true := by decide
theorem test_hyps_TimeReadReadsTheCounter : (running q0 [⟨hd, .timeRead trO⟩]).starts q0 ⟨hd, .timeRead trO⟩ = true ∧
    (running q0 [⟨hd, .timeRead { trO with kind := 1 }⟩]).starts q0 ⟨hd, .timeRead { trO with kind := 1 }⟩ = true := by decide
/-- A header that waits for counter 0 to reach 1, in either bank. -/
def hw (bank : Bool) : Header := { hd with wait := true, waitBank := bank, waitValue := 1 }
theorem test_hyps_UnmetWaitHoldsTheQueue : ∀ b : Bool, (running q0 [⟨hw b, .nop⟩]).boot.inReset = false ∧ (running q0 [⟨hw b, .nop⟩]).live q0 = true ∧
    (running q0 [⟨hw b, .nop⟩]).fetch q0 = some ⟨hw b, .nop⟩ ∧ (running q0 [⟨hw b, .nop⟩]).switchingOn q0.unit = false ∧ (hw b).wait = true ∧
    ((if (hw b).waitBank then (running q0 [⟨hw b, .nop⟩]).doorbell (hw b).waitCtr else (running q0 [⟨hw b, .nop⟩]).token q0.unit (hw b).waitCtr) + 2 ^ 16 - (hw b).waitValue % 2 ^ 16) % 2 ^ 16 ≥ 0x8000 := by decide
/-- A TIMED command of a queue whose timer 3 is set. -/
def timedAt (sched : Nat) (b : Body) : State :=
  { running qTime [⟨{ hd with timed := true }, b⟩] with queues := [(queueKey qTime, { qs with armed := some 3, seq := 1 })], timers := [(3, ⟨sched, true, none⟩)], now := 50 }
theorem test_hyps_LaunchRule : ∀ x ∈ [49, 50, 51], (timedAt x .nop).boot.inReset = false ∧ (timedAt x .nop).live qTime = true ∧
    (timedAt x .nop).fetch qTime = some ⟨{ hd with timed := true }, .nop⟩ ∧ (timedAt x .nop).blocked qTime { hd with timed := true } .nop = none ∧
    ((timedAt x .nop).queue qTime).armed = some 3 ∧ ((timedAt x .nop).queue qTime).seq ≠ 0 ∧ (look LaunchTimer.unused (timedAt x .nop).timers 3).sched = x := by decide
theorem test_hyps_LaunchRule_late_pin : (timedAt 60 (.pinSet psO)).boot.inReset = false ∧ (timedAt 60 (.pinSet psO)).live qTime = true ∧
    (timedAt 60 (.pinSet psO)).fetch qTime = some ⟨{ hd with timed := true }, .pinSet psO⟩ ∧ (timedAt 60 (.pinSet psO)).blocked qTime { hd with timed := true } (.pinSet psO) = none ∧
    ((timedAt 60 (.pinSet psO)).queue qTime).armed = some 3 ∧ ((timedAt 60 (.pinSet psO)).queue qTime).seq ≠ 0 ∧ (timedAt 60 (.pinSet psO)).time.armed.length < 16 ∧
    (look LaunchTimer.unused (timedAt 60 (.pinSet psO)).timers 3).sched < (timedAt 60 (.pinSet psO)).now + (timedAt 60 (.pinSet psO)).armLead (.pinSet psO) := by decide
/-- A command whose work is finished. -/
def doneEntry : InProg := ⟨0, 0, 0, ⟨{ hd with last := true }, .nop⟩, false, true, false, Mover.idle⟩
theorem test_hyps_CompletionTakesEffect : ({ running q0 [] with queues := [(queueKey q0, { qs with prog := [doneEntry], seq := 1 })] } : State).boot.inReset = false ∧
    (({ running q0 [] with queues := [(queueKey q0, { qs with prog := [doneEntry], seq := 1 })] } : State).queue q0).prog = [doneEntry] ∧ doneEntry.worked = true ∧ doneEntry.done = false := by decide
/-- The three states of a timer at its tick: a pin action armed, nothing, a command that waits. -/
def ticking (armed : List Armed) (w : Option QueueId) : State :=
  { timedAt 60 .nop with time := { (timedAt 60 .nop).time with armed := armed }, timers := [(3, ⟨60, true, w⟩)] }
/-- A TIMED VADD that waits for timer 3 while line 0, which it reads, is claimed by a transfer whose bytes have not come. -/
def tickingHeld : State :=
  { running q0 [⟨{ hd with timed := true }, .vadd veO⟩] with
    queues := [(queueKey q0, { qs with armed := some 3, seq := 1 })]
    timers := [(3, ⟨60, true, some q0⟩)]
    cores := awake.cores.set 0 { awake.cores[0] with claims := [⟨⟨⟨.tc 0, 1⟩, 0⟩, 0, 1, 0, false, 0, true, 0, false, Line.zero, false, false⟩] } }
theorem test_hyps_LaunchTickStarts : ((ticking [⟨3, 60, ⟨qTime, 0⟩, .pinSet psO⟩] none).boot.inReset = false ∧
      (ticking [⟨3, 60, ⟨qTime, 0⟩, .pinSet psO⟩] none).time.armed.any (fun a => a.timer == 3) = true ∧ (ticking [⟨3, 60, ⟨qTime, 0⟩, .pinSet psO⟩] none).tickHeld 3 = false) ∧
    tickingHeld.tickHeld 3 = true ∧
    ((ticking [] none).time.armed.any (fun a => a.timer == 3) = false ∧ (look LaunchTimer.unused (ticking [] none).timers 3).waiting = none) ∧
    ((ticking [] (some qTime)).time.armed.any (fun a => a.timer == 3) = false ∧ (look LaunchTimer.unused (ticking [] (some qTime)).timers 3).waiting = some qTime ∧
      (ticking [] (some qTime)).fetch qTime = some ⟨{ hd with timed := true }, .nop⟩ ∧ (ticking [] (some qTime)).live qTime = true ∧ ((ticking [] (some qTime)).queue qTime).armed = some 3 ∧
      ((ticking [] (some qTime)).queue qTime).seq ≠ 0) := by decide

/-- Every command of one scratchpad, on core 0. -/
def coreCommands : List Instr := [.matmul q0 hd mmO, .matmulS2 q0 hd mmO, .wconv q0 hd wcO, .wconvDiag q0 hd wcO, .vadd q0 hd veO, .vsub q0 hd veO, .vmul q0 hd veO, .vfma q0 hd veO, .vmax q0 hd veO,
  .vmin q0 hd veO, .vunary q0 hd veO, .vcmp q0 hd veO, .vsel q0 hd veO, .vexp2 q0 hd veO, .vlog2 q0 hd veO, .vrecip q0 hd veO, .vrsqrt q0 hd veO, .vact q0 hd veO, .vreduce q0 hd veO,
  .vepilogue q0 hd veO, .vqs2 q0 hd { veO with fmtOut := 4 }, .vquant q0 hd { veO with fmtOut := 4 }, .vdequant q0 hd { veO with fmtIn := 4 }, .vrescale q0 hd { veO with fmtIn := 11, fmtOut := 2 },
  .vpool q0 hd veO, .vargmax q0 hd { veO with fmtOut := 11 }, .vpoolBwd q0 hd veO, .spFill q0 hd sfO, .spCopy q0 hd scO]
theorem test_hyps_CoreCommandsStayInTheirScratchpad : coreCommands.all (fun i => match coreCommand i with
    | some (q, c) => (running q [c]).starts q c
    | none => false) = true := by decide
theorem test_hyps_FillWritesEveryLine : (running q0 [⟨hd, .spFill sfO⟩]).starts q0 ⟨hd, .spFill sfO⟩ = true ∧
    canon Line.zero (running q0 [⟨hd, .spFill sfO⟩]).cores[coreOf q0.unit].lines = true ∧ (running q0 [⟨hd, .spFill sfO⟩]).cores[coreOf q0.unit].claims = [] := by decide
theorem test_hyps_CopyReadsBeforeItWrites : (running q0 [⟨hd, .spCopy scO⟩]).starts q0 ⟨hd, .spCopy scO⟩ = true ∧
    canon Line.zero (running q0 [⟨hd, .spCopy scO⟩]).cores[coreOf q0.unit].lines = true ∧ (running q0 [⟨hd, .spCopy scO⟩]).cores[coreOf q0.unit].claims = [] := by decide
theorem test_hyps_ElementwiseCommandsWriteTheirRows : (coreCommands.filter (fun i => (elementwise i).isSome)).length = 14 ∧
    (coreCommands.all (fun i => match elementwise i with
      | some e => (running e.queue [e.cmd]).starts e.queue e.cmd && decide (Fmt.ofCode e.ops.fmtIn = some .fp32) && decide (Fmt.ofCode e.ops.fmtOut = some .fp32) &&
          canon Line.zero (running e.queue [e.cmd]).cores[coreOf e.queue.unit].lines && decide ((running e.queue [e.cmd]).cores[coreOf e.queue.unit].claims = [])
      | none => true)) = true := by decide

/-- The state with pin 3 driven by the running generator 1, or with a pulse on it. -/
def drivenPin (s : State) : State := { s with time := { s.time with gens := s.time.gens.setIfInBounds 1 ⟨true, 3, 0, 100, 1000, 1, 0, 0, false⟩ } }
def pulsedPin (s : State) : State := { s with time := { s.time with pins := s.time.pins.setIfInBounds 3 { Pin.idle with pulse := some (false, 99) } } }
theorem test_hyps_PinSetAndPulseDriveTheirPin : ([.pinSet psO, .pinPulse ppO] : List Body).all (fun b =>
    (running qTime [⟨hd, b⟩]).starts qTime ⟨hd, b⟩ && !(running qTime [⟨hd, b⟩]).genDrives 3 &&
    (drivenPin (running qTime [⟨hd, b⟩])).starts qTime ⟨hd, b⟩ && (drivenPin (running qTime [⟨hd, b⟩])).genDrives 3) = true := by decide
theorem test_hyps_GeneratorsStartAndStop : (let s := running qTime [⟨hd, .pgStart gsO⟩];
    s.starts qTime ⟨hd, .pgStart gsO⟩ = true ∧ s.genDrives gsO.pin = false ∧ (s.pin gsO.pin).pulse = none ∧ (drivenPin s).starts qTime ⟨hd, .pgStart gsO⟩ = true ∧ (drivenPin s).genDrives gsO.pin = true ∧
    (pulsedPin s).starts qTime ⟨hd, .pgStart gsO⟩ = true ∧ ((pulsedPin s).pin gsO.pin).pulse ≠ none) ∧ (running qTime [⟨hd, .pgStop ⟨31⟩⟩]).starts qTime ⟨hd, .pgStop ⟨31⟩⟩ = true := by decide
theorem test_hyps_CaptureArmsAndDisarms : (running qTime [⟨hd, .capArm caO⟩]).starts qTime ⟨hd, .capArm caO⟩ = true ∧ ((running qTime [⟨hd, .capArm caO⟩]).pin caO.pin).cap = none ∧
    (running qTime [⟨hd, .capDisarm ⟨3⟩⟩]).starts qTime ⟨hd, .capDisarm ⟨3⟩⟩ = true ∧ ((running qTime [⟨hd, .capDisarm ⟨3⟩⟩]).pin 3).cap = none := by decide
/-- A LAZY page that is not valid, at 4; and four pages that may be read and written. -/
def lazyPages (s : State) : State := { s with pages := [(4, 8)] }
def openPages (s : State) : State := { s with pages := [(0, 1), (1, 0x1001), (4, 0x4001), (5, 0x5001)] }
/-- Whether every byte of a range may be accessed. -/
def opens (s : State) (a n : Nat) (w : Bool) : Bool := (List.range n).all (fun i => match s.translate (a + i) w with | .ok _ => true | .fault _ => false)
theorem opens_all {s : State} {a n : Nat} {w : Bool} (h : opens s a n w = true) : ∀ i, i < n → ∃ p, s.translate (a + i) w = .ok p := by
  intro i hi
  have := List.all_eq_true.mp h i (List.mem_range.mpr hi)
  split at this
  · exact ⟨_, ‹_›⟩
  · cases this
theorem test_hyps_PagePolicySetsLazyPages : (lazyPages (running q0 [⟨hd, .pgPolicy pgO⟩])).starts q0 ⟨hd, .pgPolicy pgO⟩ = true ∧ canon (0 : DWord) (lazyPages (running q0 [⟨hd, .pgPolicy pgO⟩])).pages = true := by decide
theorem test_hyps_PagePolicySetsLazyPages_touch : (openPages (running q0 [⟨hd, .pgTouch ptO⟩])).starts q0 ⟨hd, .pgTouch ptO⟩ = true ∧ 0 < ptO.pages ∧
    ∀ i, i < ptO.pages → ∃ p, (openPages (running q0 [⟨hd, .pgTouch ptO⟩])).translate ((ptO.virtPage + i) * 4096) (ptO.fill % 2 == 1) = .ok p := by
  refine ⟨by decide, by decide, ?_⟩
  intro i hi
  match i, hi with
  | 0, _ => exact ⟨0x4000, by decide⟩
  | 1, _ => exact ⟨0x5000, by decide⟩
theorem test_hyps_CreditsAreSetOut : (withChan (running q0 [⟨hd, .spCredit { cdO with channel := 0 }⟩]) ch).starts q0 ⟨hd, .spCredit { cdO with channel := 0 }⟩ = true ∧
    ((withChan (running q0 []) ch).chan 0).ent.kind = 0x08 ∧ field ((withChan (running q0 []) ch).chan 0).ent.source 22 10 = (withChan (running q0 []) ch).device := by decide
theorem test_hyps_PublicationWritesItsHeader : Memory.wf (withChan (running qBack [⟨hd, .pub { puO with channel := 0 }⟩]) ch).window = true ∧
    (withChan (running qBack [⟨hd, .pub { puO with channel := 0 }⟩]) ch).starts qBack ⟨hd, .pub { puO with channel := 0 }⟩ = true ∧
    (running qBack [⟨hd, .pubOpen poO⟩]).starts qBack ⟨hd, .pubOpen poO⟩ = true := by decide
/-- Every command that moves data in steps, each on a queue of a unit that has it; channel 0 has a credit. -/
def movingCommands : List Instr := [.xfer q0 hd { xfO with channel := 0 }, .pgTouch q0 hd ptO, .nWrite q0 hd { nwO with channel := 0 }, .ewin qEe hd ewO, .ppParam qFront hd paO, .ppBParam qBack hd paO,
  .ppBRows qBack hd brO, .sldColl qSp hd clO, .ethFlow qEth hd ⟨64, 0, 4⟩, .ethSend qEth hd ⟨0, 7⟩, .ethGcl qEth hd glO, .sctlRead qSctl hd swO]
theorem test_hyps_MovingCommandsRunUntilTheyWait : movingCommands.all (fun i => match movingCommand i with
    | some (q, c, _) => (withChan (running q [c]) ch).starts q c
    | none => false) = true := by decide
/-- A stream whose core 0 has a partition of 1,024 lines. -/
def st1 : Stream := { st0 with partitions := [⟨0, 2, 0, 65536, 0xFFFF⟩], placements := [⟨0, 0, [0], [], [], [], [], [], []⟩] }
/-- An XFER of 64 bytes of line 4, whose descriptor stands in lines 1 and 2: ELEM_LOG2 6, DST_KIND 4 (R136). -/
def moving : State := { withChan (running q0 [⟨hd, .xfer { xfO with channel := 0 }⟩]) ch with
  stream := some st1
  cores := awake.cores.set 0 { awake.cores[0] with lines := [(1, { Line.zero with bits := BitVec.ofNat 512 (256 + 4 * 2 ^ (8 * 0x11) + 6 * 2 ^ (8 * 0x16)) })] } }
theorem test_hyps_MovingCommandsRunUntilTheyWait_xfer : (let k := moving.cores[coreOf q0.unit]; let d := parseDesc (k.bytes 64 128);
    moving.starts q0 ⟨hd, .xfer { xfO with channel := 0 }⟩ = true ∧ xfO.descAddr = 64 ∧ xfO.descKind = 0 ∧ moving.descBad q0.unit (moving.chan 0).ent.tokenBytes d = false ∧ d.srcKind = 0 ∧ d.dstKind = 4 ∧
    d.payload = (moving.chan 0).ent.tokenBytes ∧ d.count = 1 ∧ d.src (coordsOf d.countM1 0) = .addr 256 ∧
    (∀ l ∈ [1, 2] ++ [4], (k.pendingLines q0).contains l = false ∧ (k.line l).upset = 0) ∧ (moving.queue q0).prog = [] ∧ q0.unit ≠ .invar ∧
    (((moving.onChan 0 (fun c => if xfO.xflags.testBit 0 then { c.spend with lineNo := 0 } else c.spend)).lookEntry 0).chan 0).ent.tokenBytes = d.payload) := by decide +kernel
/-- A channel that ends at core 1, whose bank groups admit accesses. -/
def writing : State := { withChan (running q0 [⟨hd, .nWrite { nwO with channel := 0 }⟩]) { ch with ent := { en with dest := 0x05 * 2 ^ 16 + 256 } } with
  cores := awake.cores.set 1 { awake.cores[1] with on := 15 } }
theorem test_hyps_MovingCommandsRunUntilTheyWait_nwrite : writing.starts q0 ⟨hd, .nWrite { nwO with channel := 0 }⟩ = true ∧ (writing.chan 0).ent.destCore = some 1 ∧
    (∀ l ∈ blockLines nwO.destLine (nwO.rowsM1 + 1) nwO.lines nwO.destPitch, writing.cores[(1 : Fin 7)].shut l = false) ∧
    (∀ l ∈ blockLines nwO.srcLine (nwO.rowsM1 + 1) nwO.lines nwO.srcPitch, (writing.cores[coreOf q0.unit].pendingLines q0).contains l = false) ∧ (writing.queue q0).prog = [] := by decide +kernel
/-- A window descriptor at 64: a 1 × 1 map of INT8, one tap, every stride and step 1 (R153). -/
def windowed : State := { openPages (running qEe [⟨hd, .ewin ewO⟩]) with mem := [(74, 1), (78, 1), (79, 1), (80, 1), (81, 1), (82, 1), (83, 1), (96, 2)] }
theorem test_hyps_MovingCommandsRunUntilTheyWait_ewin : (let d := parseWindow (windowed.memBytes 64 64); let r := ewinRun ewO d (windowed.pewter 0) (windowed.memPoisoned 64 64) 0;
    windowed.starts qEe ⟨hd, .ewin ewO⟩ = true ∧ unitIndex qEe.unit = 0 ∧ windowed.translate ewO.descAddr false = .ok 64 ∧ ewinBad ewO d = false ∧ d.empty ewO.p0 = false ∧
    min (ewO.posM1 + 1) (d.positions - ewO.p0) = 1 ∧ (windowed.pewter 0).held + r.1.data.length ≤ 524288) := by decide +kernel
/-- A set of 64 bytes; its camera has no pending sets, its pages are open. -/
def gO : ParamOps := { paO with group := 0 }
theorem test_hyps_MovingCommandsRunUntilTheyWait_sets : ∀ b : Bool,
    (let c : Command := if b then ⟨hd, .ppBParam gO⟩ else ⟨hd, .ppParam gO⟩; let q := if b then qBack else qFront; let s := openPages (running q [c]);
      s.starts q c = true ∧ ((if b then (s.cam gO.camera).bpending else (s.cam gO.camera).pending).filter (fun p => p.group == gO.group)).length < 4 ∧
      ∀ i, i < groupBytes b gO.group → ∃ p, s.translate (gO.addr + i) false = .ok p) := by
  intro b
  cases b
  · exact ⟨by decide, by decide, opens_all (by decide +kernel)⟩
  · exact ⟨by decide, by decide, opens_all (by decide +kernel)⟩
/-- A PP_BROWS of the first, a middle or the last rows of a frame of two pixels a row, camera 1, with `f` as its flags. -/
def rowsO (f : Nat) : BRowsOps := { brO with bflags := f }
def rowsState (f : Nat) : State := { openPages (running qBack [⟨hd, .ppBRows (rowsO f)⟩]) with
  cams := awake.cams.set 1 { Camera.idle with bsets := (List.replicate 8 none).set 0 (some ⟨1, [0, 0, 2, 0, 1, 0] ++ List.replicate 58 0⟩), records := [⟨1, 0, 5, false, false⟩] }
  pipes := awake.pipes.set 0 { Pipeline.idle with back := some ⟨1, ⟨1, 0, 5, false, false⟩, [], false, false⟩ } }
theorem test_hyps_MovingCommandsRunUntilTheyWait_rows : ∀ f ∈ [0, 1, 2, 3], (rowsState f).starts qBack ⟨hd, .ppBRows (rowsO f)⟩ = true ∧ pipeOf qBack.unit = 0 ∧ ((rowsState f).pipe 0).outq = [] ∧
    ((rowsO f).bflags.testBit 0 = true → ((rowsState f).cam 1).records = [⟨1, 0, 5, false, false⟩]) ∧ ((rowsState f).cam 1).beCfg.inW * 6 = 12 ∧
    ((((rowsState f).onCam 1 (fun k => { k with records := [] })).backStart 1 ⟨1, 0, 5, false, false⟩).cam 1).beCfg.inW * 6 = 12 ∧ (rowsO f).channels ≠ 12 ∧
    (List.range (rowsO f).rows).all (fun j => opens (rowsState f) ((rowsO f).addr + j * (rowsO f).pitch * 64) 12 false) = true := by decide +kernel
/-- The back end has a frame in hand, so a last command of rows finds it. -/
theorem test_hyps_MovingCommandsRunUntilTheyWait_last : (rowsO 2).bflags.testBit 1 = true ∧
    (((List.range (rowsO 2).rows).foldl (fun x j => (((x : State).virtRead ((rowsO 2).addr + j * (rowsO 2).pitch * 64) 12).2.2).onPipe 0 (fun p => { p with back := p.back.map (fun b => { b with
      rows := b.rows ++ browsRows (Fmt.ofCode (rowsO 2).fmt) (rowsO 2).channels 2 (x.virtRead ((rowsO 2).addr + j * (rowsO 2).pitch * 64) 12).1
      poisoned := b.poisoned || (x.virtRead ((rowsO 2).addr + j * (rowsO 2).pitch * 64) 12).2.1 }) })) (rowsState 2)).pipe 0).back.isSome = true := by decide +kernel
/-- A collective of one device: reduced, or gathered. -/
def soloO (op : Nat) : CollOps := { clO with src := 4096, op := op, elements := 2 }
def solo (op : Nat) : State := { openPages (running qSp [⟨hd, .sldColl (soloO op)⟩]) with stream := some st0 }
theorem test_hyps_MovingCommandsRunUntilTheyWait_solo : ∀ op ∈ [0, 3], (solo op).starts qSp ⟨hd, .sldColl (soloO op)⟩ = true ∧ (solo op).coll (soloO op).collId = none ∧ (solo op).early = [] ∧
    members (solo op).dims (solo op).device (soloO op).scope = [(solo op).device] ∧ (solo op).collDims (soloO op) = [] ∧ inputBytes (soloO op) = 8 ∧
    opens (solo op) (soloO op).src 8 false = true ∧ opens (solo op) (soloO op).dst 8 true = true ∧
    (if (soloO op).op < 3 then outputBytes (soloO op) ((List.range (soloO op).elements).map (fun e => widen .fp32 (field (leNat ((solo op).virtRead (soloO op).src 8).1) (32 * e) 32)))
      else ((solo op).virtRead (soloO op).src 8).1).length = 8 := by decide +kernel
/-- A channel without credits and without a pass. -/
def chDry : Chan := { ch with recv := [⟨0, [], false, false⟩], passes := 0 }
theorem test_hyps_CommandsWaitForCreditOrPass : ([.xfer { xfO with channel := 0 }, .nWrite { nwO with channel := 0 }, .pub { puO with channel := 0 }] : List Body).all (fun b =>
    let s := withChan (running q0 [⟨hd, b⟩]) chDry
    !s.boot.inReset && s.live q0 && !s.switchingOn q0.unit && s.waitMet q0 hd && decide (s.fetch q0 = some ⟨hd, b⟩) && !(s.chan 0).canSend && decide ((s.chan 0).passes ≤ (s.chan 0).taken)) = true := by decide
/-- Camera 1 is in-line on pipeline 0, and its back end's output 0, channel 1, has no credit. -/
def dryBack : State := { running qBack [⟨hd, .ppBRows brO⟩] with
  chans := [{ ch with ent := { en with kind := 1, source := 0x01 * 2 ^ 16 + 256, dest := 0x02 * 2 ^ 16 + 0x20 } }, { chDry with ent := { en with kind := 3, source := 0x03 * 2 ^ 16 + 0x30 } }]
  cams := awake.cams.set 1 { Camera.idle with bsets := (List.replicate 8 none).set 0 (some ⟨1, [0, 0, 0, 0, 0, 0, 0, 0, 1] ++ List.replicate 55 0⟩) } }
theorem test_hyps_CommandsWaitForCreditOrPass_rows : dryBack.boot.inReset = false ∧ dryBack.live qBack = true ∧ dryBack.switchingOn qBack.unit = false ∧ dryBack.waitMet qBack hd = true ∧
    dryBack.fetch qBack = some ⟨hd, .ppBRows brO⟩ ∧ (dryBack.backChans brO.camera).find? (fun i => !(dryBack.chan i).canSend) = some 1 := by decide
theorem test_hyps_BusCommandsTakeTheirOutcome : (running qSctl [⟨hd, .sctlWrite swO⟩]).starts qSctl ⟨hd, .sctlWrite swO⟩ = true ∧ (running qSctl [⟨hd, .sctlCcc ccO⟩]).starts qSctl ⟨hd, .sctlCcc ccO⟩ = true := by decide
/-- A read of a sensor: whichever way the free value of the bus falls, one of the two clauses applies. -/
theorem test_hyps_BusCommandsTakeTheirOutcome_read : (let s := openPages (running qSctl [⟨hd, .sctlRead swO⟩]);
    s.starts qSctl ⟨hd, .sctlRead swO⟩ = true ∧ swO.len ≤ 16 ∧ (Config.free s.free % 2 = 1 ∨ Config.free s.free % 2 = 0) ∧ ∀ i, i < swO.len → ∃ p, s.translate (swO.dest + i) true = .ok p) :=
  ⟨by decide, by decide, by omega, opens_all (by decide)⟩
/-- A LEGAL segment without channels or programs. -/
def legal0 : Legal := ⟨1, 1, [], [], [], [], 115200, 4, 2, 16, 0, [], [], 0⟩
/-- The state with a segment that runs. -/
def withSegment (s : State) : State := { s with inv := { s.inv with legal := some legal0, running := true } }
theorem test_hyps_InvarRecordsExtendTheChain : (let s := withSegment (runningInvar qInv [⟨hd, .invRecord ⟨0, 5, 0⟩⟩]);
    s.starts qInv ⟨hd, .invRecord ⟨0, 5, 0⟩⟩ = true ∧ s.inv.legal = some legal0 ∧ 0 < legal0.recordPages ∧ Memory.wf s.window = true) := by decide
theorem test_hyps_IndicationsGoOut : (withSegment (runningInvar qInv [⟨hd, .invIndicate ⟨0, 250⟩⟩])).starts qInv ⟨hd, .invIndicate ⟨0, 250⟩⟩ = true := by decide

/-- Every row that is a register write. -/
def registerRows : List Instr := [.chnSel 0, .loadChunk 0, .loadAbort 0, .dbRing 0, .kill 0, .rearm 0, .hostIrqClear 0, .memBwSplit 0, .memPtSel 0, .memFillDone 0, .spDebugRead 5 0, .setArm 0, .pinForce true 0,
  .pinForce false 0, .tokenSubmit 0, .rollbackCommit 0, .attestStart 0, .attestRelease 0, .invReplay 0, .pwrCapWrite 0, .registerWrite 0x2FFFC 0]
/-- A thermal trip in STATE `n`. -/
def tripped (n : Nat) : State := { awake with trip := some ⟨n, 0, 0, 0, 0, []⟩ }
/-- A restart of the management controller, with `n` writes held. -/
def restarting (n : Nat) : State := { awake with mgmt := { awake.mgmt with restart := true, held := List.replicate n (0, 0) } }
/-- Before FIRMWARE_UP. -/
def booting : State := { awake with boot := { awake.boot with up := false } }
theorem test_hyps_HostRegisterWritesTakeEffectOrWait : registerRows.all (fun i => (registerRow i).isSome) = true ∧ awake.serving = true ∧ awake.boot.inReset = false ∧ (tripped 1).boot.inReset = false ∧
    (tripped 1).trip ≠ none ∧ (let s : State := { awake with host := { awake.host with discovery := true } }; s.boot.inReset = false ∧ s.trip = none ∧ s.host.discovery = true) ∧
    ¬ (0x114 % 32 = 0 ∧ (0 : Word) = 0x4353_4944) ∧ ¬ (0x100 % 32 = 0 ∧ (0 : Word) = 0x4353_4944) ∧
    (∀ n ∈ [63, 64], (restarting n).boot.inReset = false ∧ (restarting n).trip = none ∧ (restarting n).host.discovery = false ∧ (restarting n).mgmt.restart = true ∧ (restarting n).mgmt.held.length = n) ∧
    booting.boot.inReset = false ∧ booting.trip = none ∧ booting.host.discovery = false ∧ booting.boot.up = false ∧ booting.boot.recovery = false ∧ booting.mgmt.held.length < 64 := by decide
theorem test_hyps_HostRegistersTakeTheirWrites : awake.serving = true ∧ canon (0 : Word) awake.regs = true ∧ (0x134 : Word).toNat = 4 + 16 * 3 + 256 * 1 ∧ 4 + 3 + 1 = 8 := by decide
theorem test_hyps_ChannelSnapshotIsOneInstant : awake.serving = true ∧ canon (0 : Word) awake.regs = true ∧ awake.hasChan 0 = false ∧
    (∀ x ∈ [0, 2, 4, 5], (withChan awake { ch with ent := { en with state := x } }).hasChan 0 = true ∧ ((withChan awake { ch with ent := { en with state := x } }).chan 0).ent.state ∈ [0, 2, 4, 5]) ∧
    (∀ x ∈ [1, 3], (withChan awake { ch with ent := { en with state := x } }).hasChan 0 = true ∧ ((withChan awake { ch with ent := { en with state := x } }).chan 0).ent.state ∉ [0, 2, 4, 5]) ∧
    awake.snap.pending = false ∧ ({ awake with snap := ⟨true, false, false, []⟩ } : State).snap.pending = true := by decide
/-- A running stream, and one whose doorbell 0 has `n` jobs outstanding. -/
def loaded (n : Nat) : State := { running q0 [] with stream := some st0, job := { (running q0 []).job with submitted := [(0, n)] } }
theorem test_hyps_DoorbellsRing : (loaded 32766).serving = true ∧ (loaded 32766).stream ≠ none ∧ (loaded 32766).pastDrain = false ∧
    seqDist (look 0 (loaded 32766).job.completed 0) (look 0 (loaded 32766).job.submitted 0) + 1 ≤ 32767 ∧ awake.stream = none ∧ awake.serving = true ∧ (loaded 32767).serving = true ∧
    32767 < seqDist (look 0 (loaded 32767).job.completed 0) (look 0 (loaded 32767).job.submitted 0) + 1 := by decide
/-- The main stream in a state. -/
def inState (j : JobState) : State := { loaded 1 with job := { (loaded 1).job with state := j } }
theorem test_hyps_KillAndRearm : (inState .running).serving = true ∧ (inState .running).job.state = .running ∧ (inState .killing).boot.inReset = false ∧ (inState .killing).job.state = .killing ∧
    (inState .killing).loader.staged = none ∧ (inState .killed).job.state ≠ .killing ∧ (inState .killed).serving = true ∧ (inState .killed).job.state = .killed ∧ (inState .killed).health.waiting = [] ∧
    (inState .killing).job.state ≠ .killed ∧ (inState .killing).job.state ≠ .running ∧ (inState .rearming).boot.inReset = false ∧ (inState .rearming).job.state = .rearming := by decide
/-- The host port as a function of the one awake. -/
def withHost (f : HostPort → HostPort) : State := { awake with host := f awake.host }
theorem test_hyps_InterleaveCommitsAndDiscovers : (awake.boot.inReset = false ∧ awake.host.resetLow = false ∧ awake.trip = none ∧ awake.commitFault Interleave.identity = none) ∧
    (let s := withHost (fun h => { h with committing := true });
      s.boot.inReset = false ∧ s.host.resetLow = false ∧ s.trip = none ∧ s.host.committing = true ∧ s.commitFault s.host.staged = none) ∧
    (let s := withHost (fun h => { h with committing := true, staged := ⟨0, []⟩ });
      s.boot.inReset = false ∧ s.host.resetLow = false ∧ s.trip = none ∧ s.host.committing = true ∧ s.commitFault s.host.staged = some (4, 5, 0)) ∧ awake.host.committing = false ∧
    (withHost (fun h => { h with discovery := true })).host.discovery = true ∧ (withHost (fun h => { h with deducing := true })).host.deducing = true :=
  ⟨⟨rfl, rfl, rfl, identity_commits rfl⟩, ⟨rfl, rfl, rfl, rfl, identity_commits rfl⟩, by decide +kernel, rfl, rfl, rfl⟩
/-- The security engine as a function of the one awake. -/
def withSec (f : Security → Security) : State := { awake with sec := f awake.sec }
theorem test_hyps_SecurityCommandsTakeEffect : awake.serving = true ∧ awake.tokenBusy = false ∧ (withSec (fun x => { x with token := some ⟨[], true⟩ })).tokenBusy = true ∧
    (withSec (fun x => { x with token := some ⟨[], true⟩ })).serving = true ∧ awake.sec.token = none ∧ awake.bufferBusy = false ∧ awake.sec.snapshot = none ∧
    (withSec (fun x => { x with snapshot := some [] })).sec.snapshot = some [] ∧ (withSec (fun x => { x with snapshot := some [] })).bufferBusy = false ∧ awake.sec.waiting = false ∧
    awake.jtagTakes 0xFF ≠ 3 := by decide
/-- A window map that opens page 0 of the aperture, to a host that may write it or not. -/
def mapped (w : Bool) : State := { loaded 1 with stream := some { st0 with winMap := [⟨64, 2, w, false⟩] } }
theorem test_hyps_HostBurstsAreServed : awake.boot.inReset = false ∧ awake.host.resetLow = false ∧ awake.trip = none ∧ awake.host.discovery = false ∧ awake.target (64 * 4096) = .unmapped ∧
    (mapped true).target (64 * 4096 + 32) = .window ⟨64, 2, true, false⟩ 32 ∧ (mapped false).target (64 * 4096) = .window ⟨64, 2, false, false⟩ 0 ∧ (mapped true).loader.stage ≠ .draining ∧
    Memory.wf (mapped true).window = true ∧ (mapped true).host.resetLow = false := by decide +kernel
theorem test_hyps_HostChannelCommands : awake.boot.inReset = false ∧ awake.host.resetLow = false ∧ (∀ mr ∈ [0, 2, 3, 9, 15, 17], ¬ (mr = 3 ∧ field 0 3 2 = 1) ∧ (mr < 4 ∨ 8 < mr) ∧ mr ≠ 16) ∧
    (∀ mr ∈ [4, 8], 4 ≤ mr ∧ mr ≤ 8) ∧ field 8 3 2 = 1 := by decide
theorem test_hyps_ManagementSidebandAnswers : awake.boot.inReset = false ∧ 0x3FFFC % 4 = 0 ∧ 0x3FFFC < 0x40000 ∧ 2 % 4 ≠ 0 ∧ awake.mgmt.pointer = 0 ∧ awake.trip = none ∧
    (tripped 1).trip = some ⟨1, 0, 0, 0, 0, []⟩ ∧ (tripped 1).mgmt.pointer = 0 ∧ (tripped 1).boot.inReset = false := by decide
/-- The loader as a function of the one awake. -/
def withLoader (f : Loader → Loader) : State := { awake with loader := f awake.loader }
theorem test_hyps_LoadsGoThroughTheirOrders : awake.serving = true ∧ awake.loadBusy = false ∧ awake.boot.recovery = false ∧ (withLoader (fun l => { l with busy := true })).loadBusy = true ∧
    (0 : Word).getLsbD 1 = false ∧ (withSec (fun x => { x with held := true })).sec.held = true ∧ ({ awake with faults := { awake.faults with request := some 4 } } : State).faults.request ≠ none ∧
    (let s := withLoader (fun l => { l with busy := true, stage := .receiving });
      s.serving = true ∧ s.faults.request = none ∧ s.sec.held = false ∧ s.boot.recovery = false ∧ s.loader.stage = .receiving) ∧ 0 < (65536 : Word).toNat % 2 ^ 17 ∧ (65536 : Word).toNat % 2 ^ 17 ≤ 65536 ∧
    awake.loader.stage ≠ .draining ∧ (withLoader (fun l => { l with stage := .draining, staged := some st0 })).loader.staged = some st0 ∧
    (withLoader (fun l => { l with stage := .starting, staged := some st0 })).loader.stage = .starting := by decide
/-- Core 0 with its bank groups on, and with a debug read that waits. -/
def withCore (f : Core → Core) : State := { awake with cores := awake.cores.set 0 (f awake.cores[0]) }
theorem test_hyps_DebugReadsShowTheLine : canon (0 : Word) awake.regs = true ∧ awake.serving = true ∧ (let s := withCore (fun c => { c with on := 15 });
      s.debugAllowed = true ∧ (782335 : Word).toNat % 2 ^ 20 < 782336 ∧ s.cores[coreOf (.tc 0)].on.getLsbD (groupOf 782335) = true ∧ s.serving = true ∧ canon (0 : Word) s.regs = true) ∧
    (loaded 1).debugAllowed = false ∧ (loaded 1).serving = true ∧ awake.cores[coreOf (.tc 0)].on.getLsbD (groupOf 0) = false ∧
    (let s := withCore (fun c => { c with dbgWait := true });
      s.boot.inReset = false ∧ s.cores[coreOf (.tc 0)].dbgWait = true ∧ s.cores[coreOf (.tc 0)].claims = [] ∧ canon (0 : Word) s.regs = true) := by decide

/-- A stream that claims pins 0 to 31 for output, or pin 3 in one mode. -/
def withPin (mode : Nat) (p : Pin) : State :=
  { loaded 1 with stream := some { st0 with claims := [⟨resPin, 3, 0, mode⟩] }, time := { awake.time with pins := awake.time.pins.set 3 p } }
/-- A capture without windows and one with. -/
def plainCap : Capture := ⟨3, 0, 0, 0, 0⟩
def windowCap : Capture := ⟨3, 0, 10, 20, 0⟩
/-- A channel that starts at record port 0, with one record waiting. -/
def recState : State := { withChan (loaded 1) { ch with ent := { en with source := 0x0C * 2 ^ 16 + 0x20, tokenBytes := 64 } } with
  time := { awake.time with recPorts := awake.time.recPorts.set 0 ⟨[⟨5, 3, List.replicate 16 0, List.replicate 16 0⟩], true⟩ } }
/-- Generator 1 on pin 3, between pulses or in one. -/
def genState (high : Bool) : State := { awake with time := { awake.time with gens := awake.time.gens.set 1 ⟨true, 3, 0, 100, 1000, 1, 0, 0, high⟩ } }
theorem test_hyps_PinEventsTakeEffect : awake.boot.inReset = false ∧ (awake.pin 3).cap = none ∧
    (let s := withPin 0 { Pin.idle with cap := some plainCap };
      s.boot.inReset = false ∧ s.pinMode 3 = some 0 ∧ (s.pin 3).cap = some plainCap ∧ plainCap.length = 0 ∧ (s.pin 3).prev = none ∧ 16 < (320 + 128) % 256 ∧ (320 + 128) % 256 < 240 ∧
      plainCap.start ≤ unsigned 64 (((320 + 128) / 256 : Nat) - s.pinOffset 3) ∧ (∀ r : Bool, plainCap.edges.testBit (if r then 0 else 1) = true)) ∧
    (let s := withPin 0 { Pin.idle with cap := some windowCap };
      (s.pin 3).cap = some windowCap ∧ windowCap.has (s.pin 3).win.index = true) ∧
    (recState.chanFrom 0x0C 0 (0x20 + 0) = some 0 ∧ (recState.chan 0).canSend = true ∧ max 1 ((recState.chan 0).ent.tokenBytes / recSize 0) = 4 ∧ (recState.recPort 0).recs.length = 1) ∧
    ((genState false).gen 1).high = false ∧ ((genState false).gen 1).running = true ∧ ((genState true).gen 1).high = true ∧ ((genState true).gen 1).pin = 3 ∧
    ((pulsedPin awake).pin 3).pulse = some (false, 99) ∧ ({ awake with mclk := awake.mclk.set 2 ⟨0, some 240⟩ } : State).mclk[2].next = some 240 := by decide

/-- The time unit as a function of the one awake. -/
def withTime (f : TimeUnit → TimeUnit) : State := { awake with time := f awake.time }
/-- The Solder ports 0 and 1 up. -/
def linked : State := { loaded 1 with ports := Vector.replicate 8 { Port.down with inUse := 15, neighbour := 1 } }
/-- A neighbour of a better rank heard on a port. -/
def heardOn (n : Nat) : TimePort := { TimePort.silent with neigh := some ⟨1, n, n, 0, true⟩ }
/-- A device whose PTP port 0 is in a port state, source 0. -/
def clocked (state : Nat) : State := { withTime (fun t => { t with source := 0 }) with eth := awake.eth.set 0 { EthPort.idle with ptp := state } }
/-- A device of Solder source `n` with its parent on port 0, heard there or on port 1 too. -/
def childOf (n : Nat) (other : Bool) : State := { linked with time := { awake.time with
  source := n, parent := some 0, links := let l := awake.time.links.set 0 (heardOn 1); if other then l.set 1 (heardOn 2) else l } }
theorem test_hyps_TimeSourcesAreFollowed : awake.boot.inReset = false ∧
    (let v := State.chain { awake with now := 5, time := { awake.time with pps := some 5 } }; v.regField (rTime 0x018) 0 1 = 0 ∧ v.time.source ≠ 1) ∧
    (let s : State := { awake with regs := put 0 awake.regs 0x4018 0x10A01 }; let v := State.chain { s with now := 5, time := { s.time with pps := some 5 } };
      s.boot.inReset = false ∧ canon (0 : Word) v.regs = true ∧ v.regField (rTime 0x018) 0 1 = 1 ∧ v.time.source ≠ 1 ∧
      ((((5 : Nat) : Int) - v.reg (rTime 0x014) * second) * 256).natAbs < v.reg (rTime 0x01C) * 16000 * 256) ∧
    1 ≠ awake.ptpPort ∧ awake.ptpPort = 0 ∧ 1 ≠ field awake.time.ptp.toNat 0 8 ∧ field awake.time.ptp.toNat 0 8 = 0 := by decide +kernel
/-- What a message of the PTP port leaves: in SLAVE state, without and with an offset; SLAVE state lost, by the port and by a time before the epoch; never in it. -/
theorem test_hyps_TimeSourcesAreFollowed_ptp : (let v (s : State) (state : Nat) (offset : Option Int) := State.chain { s.onEth 0 (fun p => { p with
        ptp := if state = 3 ∧ s.time.source ≠ 1 then 1 else state, asCapable := true }) with
        time := { s.time with early := match offset with | some o => decide ((s.now * 256 : Int) < o) | none => s.time.early } };
    (clocked 1).ptpPort = 0 ∧ field (clocked 1).time.ptp.toNat 0 8 = 0 ∧ (v (clocked 1) 2 none).slave = true ∧ (v (clocked 1) 2 (some (-5))).slave = true ∧
    (5 : Nat) < (v (clocked 1) 2 (some (-5))).reg (rTime 0x01C) * 16000 * 256 ∧ (clocked 2).slave = true ∧ (v (clocked 2) 1 none).slave = false ∧ (v (clocked 2) 2 (some 1)).slave = false ∧
    (clocked 1).slave = false ∧ (v (clocked 1) 3 none).slave = false) := by decide +kernel
theorem test_hyps_TimeSourcesAreFollowed_lost : (∀ n ∈ [0, 1], (withTime (fun t => { t with source := n })).time.source = n) ∧ awake.time.source ≠ 0 ∧ awake.time.source ≠ 1 ∧ awake.time.parent = none ∧
    (childOf 2 false).boot.inReset = false ∧ (childOf 2 false).time.parent = some 0 ∧ (childOf 2 false).time.source = 2 ∧ ((childOf 2 false).onTimePort 0 (fun x => { x with neigh := none })).elect.time.parent = none ∧
    (childOf 2 true).time.parent = some 0 ∧ ((childOf 2 true).onTimePort 0 (fun x => { x with neigh := none })).elect.time.parent ≠ none ∧ (childOf 3 false).time.source ≠ 2 ∧
    (linked.port 0).up = true ∧ (linked.port 0).retraining = false ∧ (awake.port 0).up = false := by decide +kernel
/-- A time message on port 0 that is taken, of a neighbour of rank `r`. -/
def timeRx (r : Byte) : TimeRx := ⟨⟨0, ⟨9, 0, 0, 0, 1, 0, 32, 0, [1, r] ++ List.replicate 30 0⟩, true⟩, 77, true⟩
theorem test_hyps_TimeSourcesAreFollowed_messages : linked.boot.inReset = false ∧ (∀ r : Byte, r ∈ [(0 : Byte), 9] → (linked.receive (timeRx r).rx).1 = true) ∧
    ((linked.receive (timeRx 9).rx).2.hearTime (timeRx 9) (timeRx 9).rx.pkt.payload).time.parent ≠ some 0 ∧
    (let v := (linked.receive (timeRx 0).rx).2.hearTime (timeRx 0) (timeRx 0).rx.pkt.payload;
      v.time.parent = some 0 ∧ (((((v.timePort 0).t2 : Int) - (v.timePort 0).t1) - ((tickOf (timeRx 0).rx.pkt.payload : Int) - (v.timePort 0).t3)) / 2 - (v.timePort 0).asym).natAbs <
        v.reg (rTime 0x01C) * 16000 * 256) := by decide +kernel

/-- A camera whose stream runs, with a port configuration: first virtual channel 0, data type 0x2B, one exposure. -/
def camState (frames : List Frame) : State := { withChan (loaded 1) { ch with ent := { en with kind := 1, source := 0x01 * 2 ^ 16 + 256, dest := 0x02 * 2 ^ 16 + 0x21 } } with
  cams := awake.cams.set 1 { Camera.idle with sets := (List.replicate 8 none).set 0 (some ⟨1, [0, 0x2B, 0, 1] ++ List.replicate 60 0⟩), frames := frames } }
/-- A frame whose one exposure is open, or closed. -/
def frameIn (phase : Nat) : Frame :=
  { number := 0, epoch := 0, sensorFn := 0, fs := 5, fe := 0, trig := 0, skip := 0, exps := [{ Exposure.none with phase := phase }], short := false, long := false, feMissing := false, timeout := false,
    overrate := false, flagged := false, late := false, memFed := true, tight := false, cut := false, crcErr := 0, ecc := 0, stagger := 0, dynamic := 0, emb := [], user := [], sets := List.replicate 8 none,
    statics := [], band := none, slot := 0, row := 0, outq := [] }
theorem test_hyps_CameraPacketsBuildFrames : (let s := camState [];
      s.boot.inReset = false ∧ s.camLive 1 = true ∧ s.boot.isDefault = false ∧ (s.cam 1).configured = true ∧ (s.cam 1).exposureOf 1 = none ∧ isRawType 0x2B = true ∧ (s.cam 1).exposureOf 0 = some 0 ∧
      s.loader.inputsHeld = false ∧ (s.cam 1).openAt 0 = none) ∧
    (let s := camState [frameIn 1];
      s.boot.inReset = false ∧ s.camLive 1 = true ∧ s.boot.isDefault = false ∧ (s.cam 1).configured = true ∧ (s.cam 1).exposureOf 0 = some 0 ∧ s.loader.inputsHeld = false ∧ (s.cam 1).openAt 0 = some 0 ∧
      cp.dt = (s.cam 1).port 1 1 ∧ (s.cam 1).frames[0]? = some (frameIn 1) ∧ (frameIn 1).exps[0]? = some { Exposure.none with phase := 1 }) ∧
    awake.boot.isDefault = false ∧ (awake.cam cp.cam).configured = false ∧
    (let s := camState [frameIn 2]; s.job.state = .running ∧ s.health.target = none ∧ (s.pipe 0).fed = none ∧ s.oldestFed 0 = some (1, frameIn 2)) ∧ cp.header ≠ 2 ∧ cp.vc < 16 := by decide

/-- Two devices in a row, this one being device 0, with a channel 0 between them from device `a` to device `b`. -/
def paired (a b : Nat) : State := { linked with
  stream := some { st0 with dimX := 2, deviceCount := 2 }, chans := [{ ch with ent := { en with source := a * 2 ^ 22, dest := b * 2 ^ 22 } }],
  regs := put 0 (put 0 awake.regs 0x3400 0x0134_0134) 0x3400 0x0134_0134, pages := [(4, 1)] }
/-- A whole DATA token of channel 0 from device 1, and other packets. -/
def dataRx (dest : Nat) : Rx := ⟨0, ⟨1, 1, 0xC0, dest, 1, 0, 0, 0, []⟩, true⟩
theorem test_hyps_SolderPacketsReachTheirPlace : (let s := paired 1 0;
      s.boot.inReset = false ∧ (s.port 0).up = true ∧ (s.port 0).retraining = false ∧ (dataRx 0).pkt.seq = (s.port 0).rxSeq ∧ (dataRx 1).pkt.dest ≠ s.device ∧ (dataRx 0).pkt.dest = s.device ∧
      s.hasChan 0 = true ∧ (s.chan 0).ent.kind = 0x08 ∧ (s.chan 0).ent.multicast = false ∧ field (s.chan 0).ent.source 22 10 = (dataRx 0).pkt.src ∧ (dataRx 0).pkt.src ≠ s.device ∧
      (dataRx 0).pkt.marks.testBit 6 = true ∧ (dataRx 0).pkt.marks.testBit 7 = true ∧ leAt (dataRx 0).pkt.payload 0 1 = 0 ∧ s.isKilled = false ∧ s.coll 0 = none ∧ leAt (dataRx 0).pkt.payload 0 1 ≠ 1 ∧ (leAt [(1 : Byte)] 0 1).testBit 0 = true ∧
      portNeighbour s.dims s.device 0 = 1 ∧ s.relayEntry 0 0 = none) ∧
    (let s := paired 0 1; s.hasChan 0 = true ∧ (s.chan 0).ent.kind = 0x08 ∧ (s.chan 0).ent.shed = false ∧ field (s.chan 0).ent.source 22 10 = s.device ∧ field (s.chan 0).ent.dest 22 10 = 1) := by decide
/-- A device with a share for its neighbours, a readable page, a relay entry, a multicast channel and an access that waits. -/
def served : State := { paired 0 1 with
  regs := put 0 awake.regs 0x3400 0x0134_0134
  stream := some { st0 with dimX := 2, deviceCount := 2, relays := [⟨7, 1, 0, 2, true⟩, ⟨9, 1, 0xFF, 1, false⟩] }
  chans := [{ ch with ent := { en with multicast := true, dest := 9 } }]
  remotes := [⟨⟨q0, 0⟩, 1, false, 0, 64⟩]
  queues := [(queueKey q0, { qs with prog := [doneEntry], seq := 1 })] }
theorem test_hyps_SolderPacketsReachTheirPlace_others : served.regField (blkMem + 0x400) 24 4 ≠ 0 ∧ (∃ p, served.translate 0x4000 false = .ok p) ∧ (∃ p, served.translate 0x4000 true = .ok p) ∧
    leAt (List.replicate 10 (0 : Byte)) 10 1 = 0 ∧ leAt ((List.replicate 10 (0 : Byte)) ++ [1]) 10 1 = 1 ∧ portNeighbour served.dims served.device 0 = 1 ∧ served.relayEntry 7 0 = some ⟨7, 1, 0, 2, true⟩ ∧ served.hasChan 0 = true ∧ (served.chan 0).ent.multicast = true ∧ (served.chan 0).ent.shed = false ∧
    (served.chan 0).ent.dest % 4096 = 9 ∧ field (served.chan 0).ent.source 22 10 = served.device ∧ branchOf (served.branches (served.chan 0).ent) 0 = some 0 ∧
    served.remotes.find? (fun x => x.device == 1) = some ⟨⟨q0, 0⟩, 1, false, 0, 64⟩ ∧ served.prog ⟨q0, 0⟩ = some doneEntry := by
  refine ⟨by decide, ⟨_, rfl⟩, ⟨_, rfl⟩, by decide, by decide, by decide, by decide, by decide, by decide, by decide, by decide, by decide, by decide⟩

/-- Port 2 as a function of one that is up. -/
def withPort (f : Port → Port) : State := { loaded 1 with ports := awake.ports.set 2 (f { Port.down with inUse := 15 }) }
/-- A packet with a sequence number. -/
def pkSeq (n : Nat) : Packet := { pk with seq := n }
/-- Stack 1 as a function of the one at reset. -/
def withStack (f : Stack → Stack) : State := { awake with memStacks := awake.memStacks.set 1 (f Stack.reset) }
theorem test_hyps_LinksAndLanesRecover : awake.boot.inReset = false ∧
    (let p := (withPort (fun p => { p with tx := [pkSeq 4, pkSeq 5] })).port 2;
      p.waiting = [] ∧ afterSeq 5 p.tx = [pkSeq 5] ∧ p.tx.head? = some (pkSeq 4) ∧ (pkSeq 4).seq ≠ (pkSeq 5).seq ∧ (pkSeq 4).seq = 4 ∧ p.fails < 7) ∧
    ((withPort (fun p => { p with tx := [pkSeq 4], fails := 7 })).port 2).fails = 7 ∧
    (let p := (withPort (fun p => { p with inUse := 3, parked := 12, spare := 16 })).port 2; p.inUse.getLsbD 1 = true ∧ p.parked ≠ 0) ∧
    (let p := (withPort (fun p => { p with spare := 16 })).port 2; p.inUse.getLsbD 3 = true ∧ p.parked = 0 ∧ p.spare ≠ 0) ∧
    (let p := (withPort id).port 2; p.inUse.getLsbD 3 = true ∧ p.parked = 0 ∧ p.spare = 0 ∧ p.inUse &&& ~~~laneBit 3 ≠ 0) ∧
    (let p := (withPort (fun p => { p with training := 16 })).port 2;
      p.training.getLsbD 4 = true ∧ 4 ≤ ((List.range 5).filter (fun i => p.inUse.getLsbD i || p.parked.getLsbD i)).length) ∧
    (let p := (withPort (fun p => { p with inUse := 7, training := 8 })).port 2;
      p.training.getLsbD 3 = true ∧ ((List.range 5).filter (fun i => p.inUse.getLsbD i || p.parked.getLsbD i)).length < 4) := by decide
/-- A read and a write command on link 7, with `n` failures. -/
def readCmd (n : Nat) : StackCmd := ⟨7, false, 3, 0, 1, [], 0, 0, n⟩
def writeCmd (n : Nat) : StackCmd := ⟨7, true, 3, 0, 1, [], 0, n, 0⟩
/-- A slot of 64 zero bytes with a check word of right CRC and other bits `f`, or with a wrong one. -/
def goodSlot (f : Nat) : StackRx := ⟨1, 7, some (List.replicate 64 0), crc16 (List.replicate 64 0) + f * 2 ^ 16, false, 2, 3⟩
def badSlot : StackRx := { goodSlot 0 with check := (crc16 (List.replicate 64 0) + 1) % 2 ^ 16 }
def emptySlot : StackRx := ⟨1, 7, none, 0, true, 0, 0⟩
theorem test_hyps_LinksAndLanesRecover_slots : 1 < awake.part.memStacks ∧
    (∀ n ∈ [2, 3], ((withStack (fun k => { k with cmds := [writeCmd n] })).stack 1).rotation.getLsbD 7 = true) ∧ (awake.stack 1).retired = false ∧
    emptySlot.data = none ∧ slotCrcOk emptySlot = true ∧ slotNack emptySlot = false ∧
    (∀ n ∈ [2, 3], (let k := (withStack (fun k => { k with cmds := [writeCmd 0, readCmd n] })).stack 1; k.headRead 7 = some 1 ∧ k.cmds[1]? = some (readCmd n))) ∧ badSlot.data ≠ none ∧
    slotCrcOk badSlot = false ∧ (readCmd 2).fails < 3 ∧ 3 ≤ (readCmd 3).fails ∧
    (let k := (withStack (fun k => { k with cmds := [writeCmd 0, readCmd 3] })).stack 1; (k.leave 7 awake.now).recentLeaves 7 awake.now < 3 ∧ (k.leave 7 awake.now).rotation ≠ 0) ∧
    (∀ f ∈ [0, 1], slotCrcOk (goodSlot f) = true ∧ slotNack (goodSlot f) = false ∧ slotUe (goodSlot f) = false) ∧ slotCe (goodSlot 0) = false ∧ slotCe (goodSlot 1) = true ∧
    look false (awake.stack 1).suspect ((16 * 3 + 2) * 32768 + 3) = false := by decide +kernel
theorem test_hyps_LinksAndLanesRecover_stacks : (∀ r ∈ [(0xFF : BitVec 9), 0x7F], (let k := (withStack (fun k => { k with rotation := r, training := 0x100 })).stack 1; k.training.getLsbD 8 = true)) ∧
    links ((0xFF : BitVec 9) ||| 0) = 8 ∧ links ((0x7F : BitVec 9) ||| 0) < 8 ∧ look false (awake.stack 1).suspect (5 * 32768 + 3) = false ∧
    look false ((withStack (fun k => { k with suspect := [(5 * 32768 + 3, true)] })).stack 1).suspect (5 * 32768 + 3) = true ∧ awake.otp.rowsUsed 1 5 < 16 := by decide

/-- A gate list of two entries. -/
def gates : GateList := ⟨0, 1000, [(1, 500), (2, 500)]⟩
/-- Ethernet port 1 as a function of an idle one, with a channel 0 that leaves through it. -/
def withEth (f : EthPort → EthPort) : State := { withChan (loaded 1) { ch with ent := { en with kind := 9, source := (0x900 + 1) * 256 } } with eth := awake.eth.set 1 (f EthPort.idle) }
/-- A segment of a token of channel 0. -/
def segment : List Byte := leBytes 1 1 ++ List.replicate 31 0
/-- Fills and requests of the fault path. -/
def withFaults (f : Faults → Faults) : State := { awake with faults := f awake.faults }
theorem test_hyps_FramesCreditsAndFillsArrive : awake.boot.inReset = false ∧ (0x0800 : Nat) ≠ 0x88B5 ∧
    (let s := withEth id;
      leAt segment 2 2 = 0 ∧ leAt segment 0 1 = 1 ∧ s.hasChan 0 = true ∧ (s.chan 0).ent.kind = 0x09 ∧ field (s.chan 0).ent.source 22 10 = s.device ∧ field (s.chan 0).ent.source 8 14 = 0x900 + 1 ∧
      (leAt segment 1 1).testBit 7 = false ∧ (s.ethPort 1).rx.find? (fun r => r.channel == 0) = none) ∧
    ((withEth (fun e => { e with gcl := some gates })).ethPort 1).gcl = some gates ∧ ((withEth (fun e => { e with next := some gates })).ethPort 1).next = some gates ∧
    (let s := withChan awake { ch with ent := { en with shed := false } }; min 1 (s.chan 0).flying = 1 ∧ (s.chan 0).ent.shed = false) ∧
    (let s := withFaults (fun f => { f with fills := [⟨4, 3, 0⟩] }); s.faults.request = none ∧ s.bufferTaken = false ∧ s.hostFill = some ⟨4, 3, 0⟩) ∧
    (let s := withFaults (fun f => { f with fills := [⟨4, 3, 0⟩], request := some 4 }); s.faults.request = some 4 ∧ s.hostFill = some ⟨4, 3, 0⟩ ∧ s.served = []) ∧
    (∀ k ∈ [1, 2], (withFaults (fun f => { f with fills := [⟨4, k, 0⟩] })).faults.fills.find? (fun f => f.key == (withFaults (fun f => { f with fills := [⟨4, k, 0⟩] })).pageKey 4 && f.kind != 3) = some ⟨4, k, 0⟩) := by decide

/-- The fill that the host works on: of a page, and of a LARGE page in a part before its last. -/
def filling (part : Nat) : State := withFaults (fun f => { f with fills := [⟨4, 3, part⟩], request := some (4 + part) })
theorem test_hyps_FramesCreditsAndFillsArrive_done : (filling 0).serving = true ∧ (filling 0).faults.request = some 4 ∧ (filling 0).hostFill = some ⟨4, 3, 0⟩ ∧ (4 : Word).toNat % 2 ^ 24 = 4 ∧
    (filling 0).pageParts 4 ≤ 0 + 1 ∧ (let s : State := { withFaults (fun f => { f with fills := [⟨512, 3, 510⟩], request := some (512 + 510) }) with pages := [(512, 10)] };
      s.serving = true ∧ s.faults.request = some (512 + 510) ∧ s.hostFill = some ⟨512, 3, 510⟩ ∧ (1022 : Word).toNat % 2 ^ 24 = 512 + 510 ∧ 510 + 1 < s.pageParts 512) := by decide
/-- A state whose Ethernet queue holds the command, on open pages, with flows and gates claimed. -/
def etherState (b : Body) (c : Chan) : State := { openPages (withChan (running qEth [⟨hd, b⟩]) c) with
  stream := some { st0 with claims := [⟨resEthQueue, 0, 0, 0⟩, ⟨resEthQueue, 1, 0, 0⟩] }
  mem := [(0x4000, 1), (0x4004, 100), (0x4008, 2), (0x400C, 156)] }
def gcO : EthGclOps := { glO with addr := 0x4000, entries := 2, cycleNs := 256, baseTick := 0 }
def etherToken : Token := ⟨⟨true, true, false, false, false, false⟩, 1, 0, 5, List.replicate 64 0⟩
theorem test_hyps_FramesCreditsAndFillsArrive_commands : (let s := etherState (.ethFlow ⟨64, 0, 4⟩) ch; s.starts qEth ⟨hd, .ethFlow ⟨64, 0, 4⟩⟩ = true ∧ opens s 64 (32 * 4) false = true) ∧
    (let s := etherState (.ethGcl gcO) ch; let r := s.virtRead gcO.addr 16;
      s.starts qEth ⟨hd, .ethGcl gcO⟩ = true ∧ unitIndex qEth.unit = 0 ∧ opens s gcO.addr 16 false = true ∧ (List.range 2).map (fun i => (leAt r.1 (8 * i) 1, leAt r.1 (8 * i + 4) 4)) = [(1, 100), (2, 156)] ∧
      (∀ e ∈ [(1, 100), (2, 156)], ∀ j, j < 8 → (e : Nat × Nat).1.testBit j = true → s.claimed resEthQueue (8 * 0 + j) = true) ∧
      [(1, 100), (2, 156)].foldl (fun a (e : Nat × Nat) => a + e.2) 0 = gcO.cycleNs ∧ gcO.baseTick ≤ s.now + 2 ^ 63 ∧ r.2.1 = false) ∧
    (let s := etherState (.ethSend ⟨0, 7⟩) { ch with inbox := [etherToken] };
      s.starts qEth ⟨hd, .ethSend ⟨0, 7⟩⟩ = true ∧ (s.chan 0).inbox = [etherToken] ∧ (s.ethPort 0).gcl = none ∧ (s.ethPort 0).held = [] ∧ ceilDiv etherToken.data.length 1408 = 1) := by decide +kernel
theorem test_hyps_FramesCreditsAndFillsArrive_frame : (tokenFrames etherToken (List.replicate 32 0) 0 0 0 7 0 ⟨qEth, 0⟩).getLast? ≠ none := by
  unfold tokenFrames; simp [etherToken, ceilDiv, leAt, slice, leNat]

/-- A line 7 of core 0: sound, with a word of two wrong bits that a read has met, or with two corrected errors; and the spares of its bank. -/
def lineState (l : Line) (used : Nat) (claimed : Bool) : State := withCore (fun c => { c with
  lines := if l = Line.zero then [] else [(7, l)], spareUsed := put 0 [] (bankIndex 7) used
  claims := if claimed then [⟨⟨q0, 0⟩, 7, 1, 0, false, 0, true, 0, false, Line.zero, false, false⟩] else [] })
def wornLine : Line := { Line.zero with errs := 2 }
def brokenLine : Line := { Line.zero with poison := true, upset := 2 }
theorem test_hyps_HealthEventsTakeEffect : awake.boot.inReset = false ∧ ((lineState Line.zero 0 false).cores[coreOf (.tc 0)].line 7).worn = false ∧
    (∀ l ∈ [wornLine, brokenLine], ((lineState l 0 false).cores[coreOf (.tc 0)].line 7).worn = true) ∧ (lineState wornLine 0 false).gap (.line 0 7) = true ∧
    (lineState wornLine 23 false).cores[coreOf (.tc 0)].sparesLeft (bankIndex 7) ≠ 0 ∧ (lineState wornLine 24 false).cores[coreOf (.tc 0)].sparesLeft (bankIndex 7) = 0 ∧
    (lineState wornLine 0 false).cores[coreOf (.tc 0)].claims.any (fun y => y.line == 7) = false ∧ (lineState wornLine 0 true).cores[coreOf (.tc 0)].claims.any (fun y => y.line == 7) = true ∧
    (let s : State := { lineState wornLine 0 false with queues := [(queueKey q0, { qs with wait := .running, prog := [doneEntry] })] }; s.gap (.line 0 7) = false) ∧
    0x0500 / 256 ≠ 0x06 ∧ 0x0601 / 256 = 0x06 := by decide +kernel
theorem test_hyps_HealthEventsTakeEffect_others : awake.loadCommits = false ∧ awake.trip = none ∧ awake.ramping = false ∧
    awake.gap (.column 0 1 2) = true ∧ awake.health.suspect ≠ some (testCode (.column 0 1 2)) ∧ awake.otp.columnsUsed 0 1 < 4 ∧
    ({ awake with power := { awake.power with switching := 2 ^ 94 } } : State).power.switching.getLsbD 94 = true ∧ groupDomain 94 = none ∧
    (withCore (fun c => { c with zeroing := 8 })).cores[coreOf (.tc 0)].zeroing.getLsbD 3 = true := by decide +kernel
theorem test_hyps_HealthEventsTakeEffect_switch : (let s := { loaded 1 with health := { awake.health with target := some 0 } };
    s.health.target = some 0 ∧ s.stream = some st0 ∧ s.choose st0 = some 0 ∧ st0.placements[0]? = some ⟨0, 0, [], [], [], [], [], [], []⟩) ∧
    (∀ q ∈ (loaded 1).mainQueues, ((loaded 1).queue q).prog = []) := by decide

/-- The power controller as a function of the one awake. -/
def withPwr (f : PowerCtl → PowerCtl) : State := { awake with pwr := f awake.pwr }
/-- Rate matching at 2,000 MHz with core 0 on and VDD_CORE held at 700 mV. -/
def matching : State := { withPwr (fun p => { p with matched := some 700 }) with regs := put 0 awake.regs (rPwr 0x010) 0x1100, power := { awake.power with on := BitVec.ofNat 96 (2 ^ 9) } }
theorem test_hyps_PowerEventsTakeEffect : awake.boot.inReset = false ∧ (∀ t ∈ [((3 : Nat), (400 : Int)), (3, 840)], t.2 < tripAt t.1) ∧ (loaded 1).boot.inReset = false ∧ (awake.readSensors [(3, 400)]).overGrade = false ∧
    (let u := awake.readSensors [(3, 400)];
      u.pwr.sensors.any (fun e => decide (u.throttleAt e.1 ≤ signed 16 e.2)) = false ∧ u.pwr.sensors.all (fun e => decide (signed 16 e.2 ≤ u.throttleAt e.1 - 40)) = true) ∧
    (let u := (loaded 1).readSensors [(3, 840)];
      u.overGrade = false ∧ u.pwr.sensors.any (fun e => decide (u.throttleAt e.1 ≤ signed 16 e.2)) = true ∧ u.hardBound < min u.pwr.thermal u.opTarget) ∧
    (withPwr (fun p => { p with step := some 725 })).pwr.step = some 725 ∧ (awake.reg (rPwr 0x010)).testBit 12 = false ∧
    (matching.reg (rPwr 0x010)).testBit 12 = true ∧ matching.pwr.matched = some 700 ∧ (∀ r ∈ [255, 257], ({ matching with pwr := { matching.pwr with rates := [(0, r)] } } : State).slowest = some r) ∧
    255 < matching.reg (rPwr 0x010) % 4096 ∧ matching.reg (rPwr 0x010) % 4096 < 257 ∧ awake.pwr.droop.contains 3 = false ∧ (withPwr (fun p => { p with brake := true })).pwr.brake = true := by decide

theorem test_hyps_TripsAndRestartsTakeEffect : awake.boot.inReset = false ∧ (999 : Int) < tripAt 3 ∧ tripAt 3 ≤ 1000 ∧ (839 : Int) < tripAt 32 ∧ tripAt 32 ≤ 840 ∧ awake.trip = none ∧ (loaded 1).stream ≠ none ∧ (loaded 1).trip = none ∧ (tripped 1).trip = some ⟨1, 0, 0, 0, 0, []⟩ ∧
    (tripped 2).trip = some ⟨2, 0, 0, 0, 0, []⟩ ∧ (∀ n ∈ [1, 2], (tripped n).boot.inReset = false) ∧ awake.boot.up = true ∧ (restarting 0).mgmt.restart = true ∧ (restarting 0).trip = none ∧ booting.boot.recovery = false ∧ booting.boot.up = false := by decide

/-- Invar as a function of the one awake. -/
def withInv (f : Invar → Invar) : State := { awake with inv := f awake.inv }
/-- A token of a LEGAL input that has not been accepted. -/
def tok : Token := ⟨⟨true, true, false, false, false, false⟩, 1, 0, 5, [1, 2]⟩
def inputState (n : Nat) : State := withChan awake { ch with ent := { en with kind := 0x0A }, inbox := List.replicate n tok, recv := [⟨0, [], false, false⟩], flying := 0 }
theorem test_hyps_InvarEventsTakeEffect : awake.boot.inReset = false ∧ awake.inv.cal ≠ false ∧ awake.inv.running = false ∧ (withInv (fun v => { v with running := true })).inv.running = true ∧
    (let s := withInv (fun v => { v with legal := some legal0, running := true });
      s.inv.legal = some legal0 ∧ s.inv.running = true ∧ s.sealIntact legal0 = true ∧ s.inv.signing = none ∧ s.inv.due = false) ∧
    (let s := withInv (fun v => { v with legal := some legal0, running := true, signing := some [] }); s.sealIntact legal0 = true ∧ s.inv.signing ≠ none ∧ s.inv.signing = some [] ∧ s.inv.due = false) ∧
    (withInv (fun v => { v with running := true })).sealIntact { legal0 with values := [1] } = false ∧ uartType [] = none ∧ awake.inv.retries = 0 ∧
    (withInv (fun v => { v with acked := false, retries := 3 })).inv.acked = false ∧ (withInv (fun v => { v with acked := false, retries := 3 })).inv.retries ≠ 0 ∧
    (withInv (fun v => { v with last := [1] })).inv.last ≠ [] := by decide +kernel
/-- Frames of the legal UART: SYNC, LEN, TYPE, SEQ, CRC. -/
def frameOf (t : Byte) : List Byte := [1, 0, t] ++ leBytes 2 (crc16 [0, t])
/-- A checkpoint is due after 1,024 records, or for its age. -/
theorem test_hyps_InvarEventsTakeEffect_due : ∀ n ∈ [1023, 1024], (withInv (fun v => { v with legal := some legal0, running := true, sinceCkpt := n })).sealIntact legal0 = true := by decide +kernel
theorem test_hyps_InvarEventsTakeEffect_frames : uartType (frameOf 1) = some 1 ∧ uartType (frameOf 2) = some 2 ∧ uartType (frameOf 3) = some 3 := by decide +kernel
theorem test_hyps_InvarEventsTakeEffect_input : (inputState 2).hasChan 0 = true ∧ ((inputState 2).chan 0).ent.kind = 0x0A ∧ min ((inputState 2).chan 0).unaccepted ((inputState 2).chan 0).inbox.length ≠ 0 ∧
    ((inputState 2).chan 0).inbox[((inputState 2).chan 0).inbox.length - min ((inputState 2).chan 0).unaccepted ((inputState 2).chan 0).inbox.length]? = some tok := by decide +kernel
/-- Invar with two of its records held and a checkpoint signed. -/
def replayState (seq : Nat) : State :=
  withInv (fun v => { v with legal := some { legal0 with ckptSlots := 1 }, running := true, seq := seq, records := [List.replicate 128 1, List.replicate 128 2], latest := [7], ckptSeq := 1 })
theorem test_hyps_ReplayPublishesAgain : (let s := replayState 3;
    s.serving = true ∧ s.inv.legal = some { legal0 with ckptSlots := 1 } ∧ 0 < ({ legal0 with ckptSlots := 1 } : Legal).recordPages ∧ Memory.wf s.window = true ∧
    s.inv.latest ≠ [] ∧ (∀ b ∈ s.inv.records, b.length = 128) ∧ s.inv.seq + 1 - s.inv.records.length = 2 ∧ s.inv.records[1]? = some (List.replicate 128 2) ∧
    4 * 4096 + (2 + 1 - 1) % 64 * 128 + 128 ≤ 16 * 4096 ∧ 4 * 4096 + (2 + 0 - 1) % 64 * 128 ≠ 4 * 4096 + (2 + 1 - 1) % 64 * 128) := by decide +kernel
theorem test_hyps_ReplayPublishesAgain_registers : canon (0 : Word) (replayState 3).regs = true := by decide +kernel

/-! ## One command each, worked by hand from the spec's rules -/

/-- The state that a command answers; the same state if it did not. -/
def after (i : Instr) (s : State) : State := match exec i s with | .next t => t | _ => s
/-- A line whose first elements are the given 32-bit words. -/
def wordsLine (ws : List Nat) : Line := { Line.zero with bits := BitVec.ofNat 512 (leNat (ws.flatMap (leBytes 4))) }
/-- The word at an index of a line of core 0. -/
def word0 (s : State) (l i : Nat) : Nat := ((s.cores[coreOf (.tc 0)].line l).bits.toNat / 2 ^ (32 * i)) % 2 ^ 32

/-- VADD in FP32 (R91): 1.5 + 2.25 = 3.75, element by element; the fourth element of a row of four is the last, zeros follow. -/
theorem test_vadd_adds : (let s := running q0 [⟨hd, .vadd veO⟩];
    let t := after (.vadd q0 hd veO) { s with cores := s.cores.set 0 { s.cores[0] with lines := [(0, wordsLine [0x3FC00000, 0x3F800000, 0, 0xBF800000]), (16, wordsLine [0x40100000, 0x3F800000, 0, 0x3F800000])] } };
    [word0 t 48 0, word0 t 48 1, word0 t 48 2, word0 t 48 3, word0 t 48 4] = [0x40700000, 0x40000000, 0, 0, 0]) := by decide +kernel

/-- DEV_DB_RING (R70): doorbell 5 with COUNT 3 gains three jobs. -/
theorem test_ring_counts : (after (.dbRing 0x305) (loaded 0)).doorbell 5 = 3 ∧ look 0 (after (.dbRing 0x305) (loaded 0)).job.submitted 5 = 3 := by decide +kernel

/-- SPFILL (R124): the second row of a block of two lines begins at the pitch. -/
theorem test_spfill_rows : (let t := after (.spFill q0 hd sfO) (running q0 [⟨hd, .spFill sfO⟩]);
    [word0 t 8 15, word0 t 9 0, word0 t 10 0, word0 t 12 0, word0 t 13 15, word0 t 14 0] = [7, 7, 0, 7, 7, 0] ∧ (t.cores[coreOf (.tc 0)].line 13).tag = 3) := by decide +kernel

/-- A page without HOST_WRITE (R255): the write changes nothing and counts WRITE_DENIED. -/
theorem test_write_denied : (after (.hostWriteBurst (64 * 4096) (List.replicate 32 1) 0 0) (mapped false)).reg 0x2024 = 1 ∧
    (after (.hostWriteBurst (64 * 4096) (List.replicate 32 1) 0 0) (mapped false)).window = [] := by decide +kernel

/-- COMPLETE (R71): the first completion of a doorbell has SEQ 1. -/
theorem test_complete_seq : look 0 (after (.commandCompletion q0) completing).job.completed 1 = 1 ∧
    (after (.commandCompletion q0) completing).winBytes 8192 5 = [1, 0, 0, 0, 1] := by decide +kernel

/-- PIN_PULSE (R236): the pin inverts, and returns WIDTH ticks later. -/
theorem test_pulse_returns : (let s := after (.pinPulse qTime hd ppO) { running qTime [⟨hd, .pinPulse ppO⟩] with now := 50 };
    (s.pin 3).level = true ∧ (s.pin 3).pulse = some (false, 114) ∧ ((after (.pulseEnd 3) s).pin 3).level = false ∧ (after (.pulseEnd 3) s).now = 114) := by decide +kernel

/-- A thermal trip (R337, R2): 125 °C at a sensor of the compute die trips, 124.875 °C does not; 105 °C trips at a stack's. -/
theorem test_trip_levels : (after (.thermalTrip 3 999) awake).trip = none ∧ (after (.thermalTrip 3 1000) awake).trip.isSome = true ∧
    (after (.thermalTrip 32 839) awake).trip = none ∧ (after (.thermalTrip 32 840) awake).trip.isSome = true := by decide +kernel
end Sys2Proof.Tests
end

section
/-! PROOFS. The channel snapshot (R28): what a register write of the host does while the block serves, what CHN_SEL and CHN_SNAP_COPY do, and O41. -/

namespace Sys2Proof.Machine

open Sys2Proof

/-! ## Register writes of the host while the block serves -/

/-- What serving means, part by part. -/
theorem State.serving_iff {s : State} : s.serving = true ↔
    s.boot.inReset = false ∧ s.boot.up = true ∧ s.trip = none ∧ s.mgmt.restart = false ∧ s.host.discovery = false := by
  simp [State.serving, and_assoc]

/-- While the block serves, nothing discards or holds a register write (R252, R267, R268): outside the upload buffer it takes effect. -/
theorem hostReg_serving {s : State} (h : s.serving = true) {off : Nat} (hb : inBuffer off = false) (w : Word) : s.hostReg off w = s.applyReg off w := by
  obtain ⟨hreset, hup, htrip, hrestart, hdisc⟩ := State.serving_iff.mp h
  simp [State.hostReg, State.arriveWrite, hreset, hup, htrip, hrestart, hdisc, hb]

/-! ## CHN_SEL -/

/-- A register write leaves which channels there are. -/
@[simp] theorem State.setReg_hasChan (s : State) (k v i : Nat) : (s.setReg k v).hasChan i = s.hasChan i := rfl

/-- A register write leaves every channel. -/
@[simp] theorem State.setReg_chan (s : State) (k v i : Nat) : (s.setReg k v).chan i = s.chan i := rfl

/-- The model's list of the states that are copied at once, in the order of their codes: IDLE, STALLED, KILLED, DONE. -/
theorem copiedAtOnce_iff (n : Nat) : [2, 4, 5, 0].contains n = true ↔ n ∈ [0, 2, 4, 5] := by
  simp only [List.contains_iff_mem, List.mem_cons, List.not_mem_nil, or_false]; omega

/-- CHN_SEL stores the identifier. -/
theorem chnSel_regs (s : State) (w : Word) : (s.chnSel w).regs = (s.setReg 0x1010 (w.toNat % 2 ^ 16)).regs := by
  simp only [State.chnSel]
  split
  · split <;> rfl
  · rfl

/-- CHN_SEL changes registers and the snapshot only. -/
theorem chnSel_frame (s : State) (w : Word) : s.chnSel w = { s with regs := (s.chnSel w).regs, snap := (s.chnSel w).snap } := by
  simp only [State.chnSel]
  split
  · split <;> rfl
  · rfl

/-- An identifier without a channel reads as zeros with UNDEFINED. -/
theorem chnSel_snap_undefined {s : State} {w : Word} (h : s.hasChan (w.toNat % 2 ^ 16) = false) :
    (s.chnSel w).snap = ⟨false, true, true, List.replicate 16 0⟩ := by
  simp only [State.chnSel, State.setReg_hasChan, h, Bool.false_eq_true, if_false]

/-- A STALLED, KILLED, DONE or IDLE channel is copied at once. -/
theorem chnSel_snap_atOnce {s : State} {w : Word} (h : s.hasChan (w.toNat % 2 ^ 16) = true)
    (hstate : (s.chan (w.toNat % 2 ^ 16)).ent.state ∈ [0, 2, 4, 5]) :
    (s.chnSel w).snap = ⟨false, true, false, (s.chan (w.toNat % 2 ^ 16)).ent.words⟩ := by
  simp only [State.chnSel, State.setReg_hasChan, State.setReg_chan, h, (copiedAtOnce_iff _).mpr hstate, if_true]

/-- The copy of a RUNNING or DRAINING channel waits, and the words of the last snapshot stand. -/
theorem chnSel_snap_pending {s : State} {w : Word} (h : s.hasChan (w.toNat % 2 ^ 16) = true)
    (hstate : (s.chan (w.toNat % 2 ^ 16)).ent.state ∉ [0, 2, 4, 5]) :
    (s.chnSel w).snap = ⟨true, false, false, s.snap.words⟩ := by
  simp only [State.chnSel, State.setReg_hasChan, State.setReg_chan, h, mt (copiedAtOnce_iff _).mp hstate, if_true, Bool.false_eq_true, if_false, State.setReg_snap]

/-- The row CHN_SEL while the block serves: the write of the register. -/
theorem exec_chnSel_serving {s : State} (h : s.serving = true) (w : Word) : exec (.chnSel w) s = .next (s.chnSel w) := by
  obtain ⟨hreset, -⟩ := State.serving_iff.mp h
  have hwrite : s.hostReg 0x1010 w = s.chnSel w := hostReg_serving h (by decide) w
  have hframe := chnSel_frame s w
  exact exec_answers_plain (f := fun s => s.hostReg 0x1010 w) rfl hreset hwrite
    (by rw [hframe]) (by rw [hframe]) (by rw [hframe]) (by rw [hframe])

/-! ## CHN_SNAP_COPY -/

/-- A pending copy is taken from the channel that CHN_SEL names now. -/
theorem snapCopy_pending {s : State} (h : s.snap.pending = true) :
    s.snapCopy = { s with snap := ⟨false, true, false, (s.chan (s.reg 0x1010)).ent.words⟩ } := if_pos h

/-- With no copy pending nothing is taken. -/
theorem snapCopy_idle {s : State} (h : s.snap.pending = false) : s.snapCopy = s := by simp [State.snapCopy, h]

/-- CHN_SNAP_COPY changes the snapshot only. -/
theorem snapCopy_frame (s : State) : s.snapCopy = { s with snap := s.snapCopy.snap } := by
  cases h : s.snap.pending with
  | true => rw [snapCopy_pending h]
  | false => rw [snapCopy_idle h]

/-- The row CHN_SNAP_COPY out of reset. -/
theorem exec_chnSnapCopy_awake {s : State} (h : s.boot.inReset = false) : exec .chnSnapCopy s = .next s.snapCopy := by
  have hframe := snapCopy_frame s
  exact exec_answers_plain (f := fun s => s.snapCopy) rfl h rfl (by rw [hframe]) (by rw [hframe]) (by rw [hframe]) (by rw [hframe])

end Sys2Proof.Machine

namespace Sys2Proof

open Sys2Proof.Machine

/-- Settles O41: CHN_SEL by the three cases of the channel named, CHN_SNAP_COPY by whether a copy is pending. -/
theorem channelSnapshotIsOneInstant : Obligations.ChannelSnapshotIsOneInstant := by
  refine ⟨?select, fun s hreset => ?copy⟩
  case select =>
    rintro w s _ hserving hcanon rfl
    have hreg (k : Nat) : (s.chnSel w).reg k = if k = 0x1010 then w.toNat % 2 ^ 16 % 2 ^ 32 else s.reg k := by
      simpa only [State.reg, chnSel_regs] using reg_set s hcanon 0x1010 (w.toNat % 2 ^ 16) k
    refine ⟨s.chnSel w, exec_chnSel_serving hserving w, chnSel_frame s w, ?_, fun k hk => ?_,
      chnSel_snap_undefined, chnSel_snap_atOnce, chnSel_snap_pending⟩
    · rw [hreg, if_pos rfl]; omega
    · rw [hreg, if_neg hk]
  case copy =>
    rw [exec_chnSnapCopy_awake hreset]
    exact ⟨fun hp => congrArg _ (snapCopy_pending hp), fun hp => congrArg _ (snapCopy_idle hp)⟩

end Sys2Proof
end

section
/-! PROOFS. SPFILL (R124): the writes of a fill, what it leaves in its scratchpad, and O24. -/

namespace Sys2Proof.Machine

open Sys2Proof

/-! ## The writes of a fill -/

/-- The 32-bit value of a fill, sixteen times in a line. -/
def fillPattern (value : Nat) : LineBits := BitVec.ofNat 512 (leNat ((List.range 16).flatMap (fun _ => leBytes 4 value)))

/-- The write of the line at a position of a fill. -/
def fillWrite (value n l : Nat) : LineWrite :=
  { line := l, mask := fullMask, data := fillPattern value, tag := some (n % 16), poison := false, flagged := false, collided := false, src := 1 }

/-- The writes of a fill, in the order of its block. -/
def fillWrites (value : Nat) (block : List Nat) : List LineWrite := block.mapIdx (fillWrite value)

/-- SPFILL makes the writes of its block. -/
theorem spFillWork_core (o : SpFillOps) (h : Holder) (s : State) : (spFillWork o h s).cores[coreOf h.queue.unit] =
    (s.cores[coreOf h.queue.unit].writes (some h) false (fillWrites o.value (blockLines o.destLine (o.rowsM1 + 1) o.lines o.destPitch))).1 := by
  simp only [spFillWork, worked_cores]
  exact writeLines_core s (coreOf h.queue.unit) (some h) false _

/-- The write at a position of a fill is that of the block's line at the position. -/
theorem fillWrites_getElem? (value : Nat) (block : List Nat) (n : Nat) : (fillWrites value block)[n]? = block[n]?.map (fillWrite value n) :=
  List.getElem?_mapIdx

/-- The writes of a fill are of lines of its block. -/
theorem fillWrites_line_mem {value : Nat} {block : List Nat} {w : LineWrite} (hw : w ∈ fillWrites value block) : w.line ∈ block := by
  obtain ⟨n, hn, rfl⟩ := List.mem_mapIdx.mp hw
  exact List.getElem_mem hn

/-- The writes of a fill are of whole lines. -/
theorem fillWrites_mask {value : Nat} {block : List Nat} {w : LineWrite} (hw : w ∈ fillWrites value block) : w.mask = fullMask := by
  obtain ⟨n, hn, rfl⟩ := List.mem_mapIdx.mp hw
  rfl

/-- A line that a fill has written: the pattern, the position modulo 16 as its tag, fresh check bits and no marks, whatever it held. -/
theorem fillWrite_result (value n l : Nat) (old : Line) :
    (fillWrite value n l).result old = ⟨fillPattern value, BitVec.ofNat 4 n, false, false, false, 0, 0⟩ := by
  have htag : BitVec.ofNat 4 (n % 16) = BitVec.ofNat 4 n := BitVec.eq_of_toNat_eq (by simp)
  simp only [LineWrite.result, fillWrite, htag]

/-! ## What a fill leaves in a scratchpad -/

/-- A line that no command claims is free for any command. -/
theorem Core.freeFor_unclaimed {k : Core} {l : Nat} (hl : ∀ x ∈ k.claims, x.line ≠ l) (h : Holder) : k.freeFor h l :=
  fun x hx hxl => absurd hxl (hl x hx)

/-- The last position of a block at which a line stands decides it. -/
theorem fillWrites_inside {k : Core} (hk : canon Line.zero k.lines = true) {block : List Nat} (hfree : ∀ x ∈ k.claims, x.line ∉ block)
    (h : Holder) (value : Nat) {n l : Nat} (hn : block[n]? = some l) (hlast : ∀ m, n < m → block[m]? ≠ some l) :
    (k.writes (some h) false (fillWrites value block)).1.line l = ⟨fillPattern value, BitVec.ofNat 4 n, false, false, false, 0, 0⟩ := by
  have hunclaimed : ∀ x ∈ k.claims, x.line ≠ l := by
    rintro x hx rfl
    exact hfree x hx (List.mem_of_getElem? hn)
  have hwrite : (fillWrites value block)[n]? = some (fillWrite value n l) := by rw [fillWrites_getElem?, hn]; rfl
  have hlater : ∀ m w, n < m → (fillWrites value block)[m]? = some w → w.line ≠ l := by
    intro m w hm hw
    rw [fillWrites_getElem?] at hw
    obtain ⟨a, ha, rfl⟩ := Option.map_eq_some_iff.mp hw
    rintro rfl
    exact hlast m hm ha
  obtain ⟨old, hline, -⟩ := Core.writes_self hk h false (fillWrites value block) l (Core.freeFor_unclaimed hunclaimed h)
    (fun w hw _ => fillWrites_mask hw) n (fillWrite value n l) hwrite rfl hlater
  rw [hline, fillWrite_result]

/-- A fill leaves the lines outside its block. -/
theorem fillWrites_outside {k : Core} (hk : canon Line.zero k.lines = true) {block : List Nat} (h : Holder) (value : Nat) {l : Nat} (hl : l ∉ block) :
    (k.writes (some h) false (fillWrites value block)).1.line l = k.line l := by
  refine Core.writes_other hk h false (fillWrites value block) ?_
  rintro w hw rfl
  exact hl (fillWrites_line_mem hw)

end Sys2Proof.Machine

namespace Sys2Proof

open Sys2Proof.Machine

/-- Settles O24: a fill's work is the writes of its block, and the last write of a line decides it. -/
theorem fillWritesEveryLine : Obligations.FillWritesEveryLine := by
  intro q h o s block hstarts hblock hcanon hfree
  refine ⟨_, State.runsAs_present (after := id) (w := spFillWork o) rfl hstarts, ?_⟩
  have hcore : (s.settle (id (spFillWork o (s.holder q) (s.begun q ⟨h, .spFill o⟩)))).cores[coreOf q.unit] =
      (s.cores[coreOf q.unit].writes (some (s.holder q)) false (fillWrites o.value block)).1 := by
    rw [State.settle_cores, hblock, ← begun_cores s q ⟨h, .spFill o⟩]
    exact spFillWork_core o (s.holder q) (s.begun q ⟨h, .spFill o⟩)
  rw [hcore]
  exact ⟨fun n l hn hlast => fillWrites_inside hcanon hfree (s.holder q) o.value hn hlast,
    fun l hl => fillWrites_outside hcanon (s.holder q) o.value hl⟩

end Sys2Proof
end

section
/-! PROOFS. INV_REPLAY (R317): writes to the window one after another, the writes of a replay, the records that sealed SRAM keeps, and O38. -/

namespace Sys2Proof.Machine

open Sys2Proof

/-! ## Writes to the window one after another -/

/-- Writes to the window one after another, each at its address. -/
def State.winWrites (s : State) (ws : List (Nat × List Byte)) : State := ws.foldl (fun s x => s.winWrite x.1 x.2) s

/-- Whether an address lies outside every one of the writes. -/
def outsideWrites (ws : List (Nat × List Byte)) (a : Nat) : Prop := ∀ x ∈ ws, a < x.1 ∨ x.1 + x.2.length ≤ a

@[simp] theorem State.winWrites_cons (s : State) (x : Nat × List Byte) (ws : List (Nat × List Byte)) :
    s.winWrites (x :: ws) = (s.winWrite x.1 x.2).winWrites ws := rfl

@[simp] theorem State.winWrites_append (s : State) (ws vs : List (Nat × List Byte)) : s.winWrites (ws ++ vs) = (s.winWrites ws).winWrites vs :=
  List.foldl_append

/-- Writes to the window change nothing else but the errors of the words that they write. -/
theorem winWrites_frame (s : State) (ws : List (Nat × List Byte)) :
    s.winWrites ws = { s with window := (s.winWrites ws).window, winErr := (s.winWrites ws).winErr } := by
  induction ws generalizing s with
  | nil => rfl
  | cons x ws ih => exact ih (s.winWrite x.1 x.2)

/-- Writes to the window keep its canonical form. -/
theorem winWrites_wf {s : State} (h : Memory.wf s.window = true) (ws : List (Nat × List Byte)) : Memory.wf (s.winWrites ws).window = true := by
  induction ws generalizing s with
  | nil => exact h
  | cons x ws ih => exact ih (winWrite_wf h x.1 x.2)

/-- Bytes outside every write stay. -/
theorem winWrites_other {s : State} (h : Memory.wf s.window = true) {ws : List (Nat × List Byte)} {a : Nat} (ha : outsideWrites ws a) :
    look (0 : Byte) (s.winWrites ws).window a = look (0 : Byte) s.window a := by
  induction ws generalizing s with
  | nil => rfl
  | cons x ws ih =>
    obtain ⟨hx, hws⟩ := List.forall_mem_cons.mp ha
    rw [State.winWrites_cons, ih (winWrite_wf h x.1 x.2) hws, winWrite_other h x.1 x.2 a hx]

/-- Bytes written are read back when no later write meets them. -/
theorem winWrites_read {s : State} (h : Memory.wf s.window = true) (pre : List (Nat × List Byte)) (a : Nat) (bs : List Byte) {post : List (Nat × List Byte)}
    (hpost : ∀ i, a ≤ i → i < a + bs.length → outsideWrites post i) :
    (s.winWrites (pre ++ (a, bs) :: post)).winBytes a bs.length = bs := by
  have hpre := winWrites_wf h pre
  rw [State.winWrites_append, State.winWrites_cons]
  calc (((s.winWrites pre).winWrite a bs).winWrites post).winBytes a bs.length
      = ((s.winWrites pre).winWrite a bs).winBytes a bs.length :=
        lookAll_congr _ _ fun i hlo hhi => winWrites_other (winWrite_wf hpre a bs) (hpost i hlo hhi)
    _ = bs := winWrite_read hpre a bs

/-! ## The writes of a replay -/

/-- Where the record of a sequence number stands in the record ring (R315). -/
def recordSlot (l : Legal) (seq : Nat) : Nat := l.recordPage * 4096 + (seq - 1) % (32 * l.recordPages) * 128

/-- Slots of the record ring are 128 bytes apart. -/
theorem recordSlot_apart {l : Legal} {m n : Nat} (h : recordSlot l m ≠ recordSlot l n) :
    recordSlot l m + 128 ≤ recordSlot l n ∨ recordSlot l n + 128 ≤ recordSlot l m := by
  simp only [recordSlot] at h ⊢; omega

/-- A record of a legal stream with a ring is published by a write to its slot. -/
theorem publishRecord_write {s : State} {l : Legal} (hl : s.inv.legal = some l) (hp : 0 < l.recordPages) (n : Nat) (r : List Byte) :
    s.publishRecord n r = s.winWrite (recordSlot l n) r := by
  simp only [State.publishRecord, hl, if_neg (Nat.ne_of_gt hp), recordSlot]

/-- The writes that publish records again from sequence number `n` on; each record comes with its place behind the oldest held, which has number `first`. -/
def recordWrites (l : Legal) (n first : Nat) (rs : List (List Byte × Nat)) : List (Nat × List Byte) :=
  (rs.filter (fun x => n ≤ first + x.2)).map (fun x => (recordSlot l (first + x.2), x.1))

/-- The write that publishes the latest checkpoint again, where there is one and a slot for it. -/
def ckptWrites (l : Legal) (seq : Nat) (latest : List Byte) : List (Nat × List Byte) :=
  if latest.isEmpty || l.ckptSlots = 0 then [] else [(l.ckptPage * 4096 + (seq - 1) % l.ckptSlots * 36864, latest)]

/-- REPLAY_LOST set where the number is no longer held. -/
def State.noteLost (s : State) (n first : Nat) : State := if 0 < n && n < first then s.setRegField rInvStatus 9 1 1 else s

/-- A record published again is one of those from the number on, in its slot. -/
theorem mem_recordWrites {l : Legal} {n first : Nat} {rs : List (List Byte × Nat)} {x : Nat × List Byte} :
    x ∈ recordWrites l n first rs ↔ ∃ b j, (b, j) ∈ rs ∧ n ≤ first + j ∧ x = (recordSlot l (first + j), b) := by
  simp only [recordWrites, List.mem_map, List.mem_filter, decide_eq_true_eq, Prod.exists, and_assoc, eq_comm (b := x)]

/-- Publishing records again is writing them to their slots. -/
theorem foldl_publishRecord {l : Legal} (hp : 0 < l.recordPages) (n first : Nat) (rs : List (List Byte × Nat)) {s : State} (hl : s.inv.legal = some l) :
    rs.foldl (fun s x => if n ≤ first + x.2 then s.publishRecord (first + x.2) x.1 else s) s = s.winWrites (recordWrites l n first rs) := by
  induction rs generalizing s with
  | nil => rfl
  | cons x rs ih =>
    rw [List.foldl_cons]
    by_cases hx : n ≤ first + x.2
    · rw [if_pos hx, publishRecord_write hl hp, ih (s := s.winWrite _ _) hl]
      simp only [recordWrites, List.filter_cons, decide_eq_true hx, if_true, List.map_cons, State.winWrites_cons]
    · rw [if_neg hx, ih hl]
      simp only [recordWrites, List.filter_cons, decide_eq_false hx, Bool.false_eq_true, if_false]

/-- Noting that a number is no longer held changes registers only. -/
theorem noteLost_frame (s : State) (n first : Nat) : s.noteLost n first = { s with regs := (s.noteLost n first).regs } := by
  simp only [State.noteLost]; split <;> rfl

/-- A number no longer held sets REPLAY_LOST, and no other register changes. -/
theorem noteLost_reg {s : State} (hc : canon (0 : Word) s.regs = true) (n first k : Nat) :
    (s.noteLost n first).reg k = if k = rInvStatus ∧ 0 < n ∧ n < first then setField (s.reg rInvStatus) 9 1 1 % 2 ^ 32 else s.reg k := by
  by_cases hlost : 0 < n ∧ n < first
  · simp only [State.noteLost, hlost.1, hlost.2, decide_true, Bool.and_self, if_true, and_true, State.setRegField, reg_set s hc]
  · have hkept : s.noteLost n first = s := if_neg (by simpa only [Bool.and_eq_true, decide_eq_true_eq] using hlost)
    rw [hkept, if_neg (fun h => hlost h.2)]

/-- A replay notes whether the number is still held, then writes the records from it on and the latest checkpoint. -/
theorem replay_winWrites {s : State} {l : Legal} (hl : s.inv.legal = some l) (hp : 0 < l.recordPages) (w : Word) {n first : Nat}
    (hn : n = w.toNat + s.inv.seq / 2 ^ 32 * 2 ^ 32) (hfirst : first = s.inv.seq + 1 - s.inv.records.length) :
    s.replay w = (s.noteLost n first).winWrites (recordWrites l n first s.inv.records.zipIdx ++ ckptWrites l s.inv.ckptSeq s.inv.latest) := by
  have hlost : (s.noteLost n first).inv.legal = some l := by rw [noteLost_frame]; exact hl
  rw [State.winWrites_append, ← foldl_publishRecord hp n first _ hlost]
  subst hn hfirst
  simp only [State.replay, hl, ckptWrites]
  split <;> rfl

/-- The row INV_REPLAY while the block serves. -/
theorem exec_invReplay_serving {s : State} (h : s.serving = true) {l : Legal} (hl : s.inv.legal = some l) (hp : 0 < l.recordPages) (w : Word) :
    exec (.invReplay w) s = .next (s.replay w) := by
  obtain ⟨hreset, -⟩ := State.serving_iff.mp h
  have hwrite : s.hostReg 0xA060 w = s.replay w := hostReg_serving h (by decide) w
  have hframe := (replay_winWrites hl hp w rfl rfl).trans (winWrites_frame _ _)
  rw [noteLost_frame] at hframe
  exact exec_answers_plain (f := fun s => s.hostReg 0xA060 w) rfl hreset hwrite (by rw [hframe]) (by rw [hframe]) (by rw [hframe]) (by rw [hframe])

/-! ## What a replay leaves in the window -/

/-- With no checkpoint, or no slot for one, nothing more is written; otherwise the checkpoint is. -/
theorem ckptWrites_cases (l : Legal) (seq : Nat) (latest : List Byte) :
    (latest = [] ∨ l.ckptSlots = 0) ∧ ckptWrites l seq latest = [] ∨
    (latest ≠ [] ∧ l.ckptSlots ≠ 0) ∧ ckptWrites l seq latest = [(l.ckptPage * 4096 + (seq - 1) % l.ckptSlots * 36864, latest)] := by
  by_cases h : latest = [] ∨ l.ckptSlots = 0
  · exact .inl ⟨h, if_pos (by simpa only [Bool.or_eq_true, List.isEmpty_iff, decide_eq_true_eq] using h)⟩
  · exact .inr ⟨not_or.mp h, if_neg (by simpa only [Bool.or_eq_true, List.isEmpty_iff, decide_eq_true_eq] using h)⟩

/-- An address outside the checkpoint's slot is outside its write. -/
theorem outside_ckptWrites {l : Legal} {seq ckpt : Nat} (hckpt : ckpt = l.ckptPage * 4096 + (seq - 1) % l.ckptSlots * 36864) {latest : List Byte} {a : Nat}
    (ha : latest = [] ∨ l.ckptSlots = 0 ∨ a < ckpt ∨ ckpt + latest.length ≤ a) : outsideWrites (ckptWrites l seq latest) a := by
  subst hckpt
  intro x hx
  obtain ⟨-, hw⟩ | ⟨⟨hne, hslots⟩, hw⟩ := ckptWrites_cases l seq latest
  · rw [hw] at hx
    exact absurd hx List.not_mem_nil
  · rw [hw] at hx
    obtain rfl := List.mem_singleton.mp hx
    exact (ha.resolve_left hne).resolve_left hslots

/-- The writes of the records up to one, of that one, and of those behind it. -/
theorem recordWrites_split {l : Legal} {n first : Nat} {rs : List (List Byte)} {j : Nat} {b : List Byte} (hb : rs[j]? = some b) (hj : n ≤ first + j) :
    recordWrites l n first rs.zipIdx = recordWrites l n first (rs.take j).zipIdx ++ (recordSlot l (first + j), b) ::
      recordWrites l n first ((rs.drop (j + 1)).zipIdx (j + 1)) := by
  obtain ⟨hlt, rfl⟩ := List.getElem?_eq_some_iff.mp hb
  have hlen : 0 + (rs.take j).length = j := by rw [List.length_take]; omega
  have hsplit : rs.zipIdx = (rs.take j).zipIdx ++ (rs[j], j) :: (rs.drop (j + 1)).zipIdx (j + 1) := by
    calc rs.zipIdx = (rs.take j ++ rs[j] :: rs.drop (j + 1)).zipIdx := by rw [← List.drop_eq_getElem_cons hlt, List.take_append_drop]
      _ = _ := by rw [List.zipIdx_append, hlen, List.zipIdx_cons]
  simp only [recordWrites, hsplit, List.filter_append, List.filter_cons, decide_eq_true hj, if_true, List.map_append, List.map_cons]

/-- What the writes of a replay leave of a record: the last one of its slot stands there, unless the checkpoint meets it. -/
theorem replayed_record {s : State} (h : Memory.wf s.window = true) {l : Legal} {n first : Nat} {rs : List (List Byte)} (hrs : ∀ b ∈ rs, b.length = 128)
    {j : Nat} {b : List Byte} (hj : n ≤ first + j) (hb : rs[j]? = some b)
    (hlast : ∀ i, j < i → i < rs.length → recordSlot l (first + i) ≠ recordSlot l (first + j)) {vs : List (Nat × List Byte)}
    (hvs : ∀ a, recordSlot l (first + j) ≤ a → a < recordSlot l (first + j) + 128 → outsideWrites vs a) :
    (s.winWrites (recordWrites l n first rs.zipIdx ++ vs)).winBytes (recordSlot l (first + j)) 128 = b := by
  have hlen : b.length = 128 := hrs b (List.mem_of_getElem? hb)
  rw [recordWrites_split hb hj, List.append_assoc, List.cons_append, ← hlen]
  refine winWrites_read h _ _ _ fun a hlo hhi x hx => ?_
  rw [hlen] at hhi
  rcases List.mem_append.mp hx with hrec | hckpt
  · obtain ⟨c, i, hmem, -, rfl⟩ := mem_recordWrites.mp hrec
    obtain ⟨hji, hir, -⟩ := List.mem_zipIdx hmem
    have hc : c.length = 128 := hrs c (List.mem_of_mem_drop (List.fst_mem_of_mem_zipIdx hmem))
    have hapart := recordSlot_apart (hlast i (by omega) (by rw [List.length_drop] at hir; omega))
    simp only [hc]
    omega
  · exact hvs a hlo hhi x hckpt

/-- An address outside the slots of the records published again is outside their writes. -/
theorem outside_recordWrites {l : Legal} {n first : Nat} {rs : List (List Byte)} (hrs : ∀ b ∈ rs, b.length = 128) {a : Nat}
    (ha : ∀ j, n ≤ first + j → j < rs.length → a < recordSlot l (first + j) ∨ recordSlot l (first + j) + 128 ≤ a) :
    outsideWrites (recordWrites l n first rs.zipIdx) a := by
  intro x hx
  obtain ⟨b, j, hmem, hj, rfl⟩ := mem_recordWrites.mp hx
  have hb : rs[j]? = some b := List.mk_mem_zipIdx_iff_getElem?.mp hmem
  have hlen : b.length = 128 := hrs b (List.mem_of_getElem? hb)
  simpa only [hlen] using ha j hj (List.getElem?_eq_some_iff.mp hb).1

/-! ## The records that sealed SRAM keeps -/

/-- Publishing a record changes nothing of the partition. -/
@[simp] theorem publishRecord_inv (s : State) (n : Nat) (r : List Byte) : (s.publishRecord n r).inv = s.inv := by
  simp only [State.publishRecord]
  split
  · split <;> rfl
  · rfl

/-- Reading lines of a scratchpad changes nothing of the partition. -/
@[simp] theorem touchLines_inv (s : State) (c : Fin 7) (ls : List Nat) : (s.touchLines c ls).inv = s.inv := by
  induction ls generalizing s with
  | nil => rfl
  | cons a ls ih =>
    rw [State.touchLines, ih]
    split
    · rfl
    · rw [count_regs, count_regs (s.onCore _ _)]; rfl

/-- A new record is kept behind the last 16,383 before it. -/
theorem addRecord_records {s : State} {rs : List (List Byte)} (hs : s.inv.records = rs) (tick type flags digest frame epoch channel : Nat) (payload : List Byte) :
    ∃ r, (s.addRecord tick type flags digest frame epoch channel payload).inv.records = (rs ++ [r]).drop (rs.length - 16383) := by
  simp only [State.addRecord, publishRecord_inv, State.onInv_inv, List.length_append, List.length_singleton, hs]
  rw [show rs.length + 1 - 16384 = rs.length - 16383 by omega]
  exact ⟨_, rfl⟩

/-- INV_RECORD keeps its record behind the last 16,383 before it. -/
theorem invRecordWork_records (o : InvRecordOps) (h : Holder) (s : State) :
    ∃ r, (invRecordWork o h s).inv.records = (s.inv.records ++ [r]).drop (s.inv.records.length - 16383) :=
  addRecord_records (congrArg Invar.records (touchLines_inv s sealed [o.line])) _ _ _ _ _ _ _ _

/-- Starting a command changes nothing of the partition. -/
theorem begun_inv (s : State) (q : QueueId) (c : Command) : (s.begun q c).inv = s.inv := by rw [State.begun_queues]

end Sys2Proof.Machine

namespace Sys2Proof

open Sys2Proof.Machine

/-- Settles O38: a replay is a list of writes to the window, of which the last that meets an address decides it; INV_RECORD drops the records before the last 16,384. -/
theorem replayPublishesAgain : Obligations.ReplayPublishesAgain := by
  refine ⟨fun q h o s hstarts => ?kept, ?published⟩
  case kept =>
    obtain ⟨r, hr⟩ := invRecordWork_records o (s.holder q) (s.begun q ⟨h, .invRecord o⟩)
    rw [begun_inv] at hr
    exact ⟨_, r, State.runsAs_present (after := id) (w := invRecordWork o) rfl hstarts, hr⟩
  case published =>
    intro w s l n first ckpt hserving hlegal hpages hn hfirst hckpt hcanon hwf hlen slot hslot
    obtain rfl : slot = fun j => recordSlot l (first + j) := funext hslot
    have hlost := noteLost_frame s n first
    have hwf' : Memory.wf (s.noteLost n first).window = true := by rw [hlost]; exact hwf
    refine ⟨s.replay w, exec_invReplay_serving hserving hlegal hpages w, ?_⟩
    rw [replay_winWrites hlegal hpages w hn hfirst]
    refine ⟨?frame, winWrites_wf hwf' _, fun k => ?register, fun hlatest hslots => ?checkpoint, fun j b hj hb hlast hclear => ?record, fun a hrec hclear => ?other⟩
    case frame => rw [winWrites_frame, hlost]
    case register => rw [winWrites_frame]; exact noteLost_reg hcanon n first k
    case checkpoint =>
      obtain ⟨hnone, -⟩ | ⟨-, hwrite⟩ := ckptWrites_cases l s.inv.ckptSeq s.inv.latest
      · exact absurd hnone (not_or.mpr ⟨hlatest, hslots⟩)
      · rw [hwrite, ← hckpt]
        exact winWrites_read hwf' _ ckpt s.inv.latest fun _ _ _ _ hx => absurd hx List.not_mem_nil
    case record =>
      refine replayed_record hwf' hlen hj hb hlast fun a hlo hhi => outside_ckptWrites hckpt (hclear.imp_right (Or.imp_right fun hapart => ?_))
      dsimp only at hapart
      omega
    case other =>
      have hout : outsideWrites (recordWrites l n first s.inv.records.zipIdx ++ ckptWrites l s.inv.ckptSeq s.inv.latest) a :=
        List.forall_mem_append.mpr ⟨outside_recordWrites hlen hrec, outside_ckptWrites hckpt hclear⟩
      rw [winWrites_other hwf' hout, hlost]

end Sys2Proof
end
